-- ==== Sys2Proof/Word.lean ====
section
/-!
DEFINITION. Word.lean: the plain value types of the Reed-Solomon encoder: a codeword or field element (8 bits), a
device register or command word (32 bits), a device offset (13 bits), and the four EC levels.
Spec: 00_scope.md R10, R13, R18; 20_memory.md R57.
-/
namespace Sys2Proof

/-- A codeword, and equally an element of GF(256) (R18, R96). -/
abbrev Byte := BitVec 8

/-- A 32-bit device register or command word (R21, R80). -/
abbrev Word := BitVec 32

/-- A host byte offset from DEV_BASE inside the device space 0x0000 to 0x1FFF, "13 bits wide" (R57). -/
abbrev Offset := BitVec 13

/-- The EC levels, in the source's order {L, M, Q, H} (R10 ECLEVELS, R83). -/
inductive EcLevel where
  | L
  | M
  | Q
  | H
deriving DecidableEq, Repr

end Sys2Proof
end

