-- ==== Sys2Proof/Syntax.lean ====
section
/-!
DEFINITION. Syntax.lean: the eight commands of RSE-CMD v1, one constructor per row of spec/opcode_table.json
(30_encoding.md R84). SOFT_RESET is the CTRL.SRST bit and not a command word (00_scope.md R4): see Machine/Bus.lean.
-/
namespace Sys2Proof

/-- A command of RSE-CMD v1 with the operands its word carries (R82). SRC, LEN and DST are registers. -/
inductive Instr where
  /-- GF_ADD A, B: field addition (R104). -/
  | gfAdd (a b : Byte)
  /-- GF_MUL A, B: field multiplication (R105). -/
  | gfMul (a b : Byte)
  /-- GF_DIV A, B: field division of A by B (R106). -/
  | gfDiv (a b : Byte)
  /-- GF_EXP A: antilog of the exponent A (R107). -/
  | gfExp (a : Byte)
  /-- GF_LOG A: discrete logarithm of the element A (R108). -/
  | gfLog (a : Byte)
  /-- GEN_POLY n: generator polynomial of degree n (R118). -/
  | genPoly (n : Byte)
  /-- RS_BLOCK n: the n EC codewords of one block (R132). -/
  | rsBlock (n : Byte)
  /-- RS_ENCODE v, e: the EC codewords of every block of a symbol of version v at EC level e (R139). -/
  | rsEncode (v : Byte) (e : EcLevel)
deriving DecidableEq, Repr

end Sys2Proof
end

