-- ==== Sys2Proof/WellFormed.lean ====
section
/-!
DEFINITION. WellFormed.lean: which command words are legal (30_encoding.md R90) and which assembler lines assemble
(R93). Every term of Instr is well-formed: its operand types hold exactly the values its word can carry, and a value
outside a command's domain is no matter of form (R91, R93: it is assembled, and the command reports the error).
-/
namespace Sys2Proof

/-- The legality predicate of R90, clause by clause. -/
def legalWord (w : Word) : Bool :=
  w.extractLsb' 4 4 = 0 && w.extractLsb' 24 8 = 0 &&
    match (w.extractLsb' 0 4).toNat with
    | 0x1 => true
    | 0x2 => true
    | 0x3 => true
    | 0x4 => w.extractLsb' 16 8 = 0
    | 0x5 => w.extractLsb' 16 8 = 0
    | 0x6 => w.extractLsb' 16 8 = 0
    | 0x7 => w.extractLsb' 16 8 = 0
    | 0x8 => w.extractLsb' 18 6 = 0
    | _ => false

/-- A line of the assembler, with its numbers as written (R93). -/
inductive AsmLine where
  | gfAdd (a b : Nat)
  | gfMul (a b : Nat)
  | gfDiv (a b : Nat)
  | gfExp (a : Nat)
  | gfLog (a : Nat)
  | rsGen (n : Nat)
  | rsBlock (n : Nat)
  | rsEncode (v : Nat) (e : EcLevel)
deriving DecidableEq, Repr

/-- "An operand that does not fit 8 bits is an assembly error" (R93). -/
def AsmLine.wellFormed : AsmLine → Bool
  | .gfAdd a b => a < 256 && b < 256
  | .gfMul a b => a < 256 && b < 256
  | .gfDiv a b => a < 256 && b < 256
  | .gfExp a => a < 256
  | .gfLog a => a < 256
  | .rsGen n => n < 256
  | .rsBlock n => n < 256
  | .rsEncode v _ => v < 256

end Sys2Proof
end

