-- ==== Sys2Proof/Decode.lean ====
section
/-!
DEFINITION. Decode.lean: the decoder of command words, written from the opcode map of 30_encoding.md R84, the encoder
and assembler of R93, and the host's entry decodeTableWord.
A command is one 32-bit word delivered by a 32-bit write to CMD (R80, R92), so there is no byte order and no length to decode.
-/
namespace Sys2Proof

/-- The operand field A = w[15:8] (R81, R82). -/
def fieldA (w : Word) : Byte := w.extractLsb' 8 8

/-- The operand field B = w[23:16] (R81, R82). -/
def fieldB (w : Word) : Byte := w.extractLsb' 16 8

/-- The EC level of the 2-bit field ECL = B[1:0] (R83). -/
def ecLevelOfBits (b : BitVec 2) : EcLevel :=
  match b.toNat with
  | 0 => .L
  | 1 => .M
  | 2 => .Q
  | _ => .H

/-- The 2-bit code of an EC level on the command interface (R83). -/
def ecLevelBits : EcLevel → BitVec 2
  | .L => 0
  | .M => 1
  | .Q => 2
  | .H => 3

/-- A row of the opcode map: a word w selects it when (w and mask) = match, and then its operands A and B give the
command (R84). -/
structure OpRow where
  pattern : Word
  mask : Word
  build : Byte → Byte → Instr

/-- The opcode map of R84, row by row. -/
def opcodeMap : List OpRow := [
  ⟨0x00000001, 0xFF0000FF, fun a b => .gfAdd a b⟩,
  ⟨0x00000002, 0xFF0000FF, fun a b => .gfMul a b⟩,
  ⟨0x00000003, 0xFF0000FF, fun a b => .gfDiv a b⟩,
  ⟨0x00000004, 0xFFFF00FF, fun a _ => .gfExp a⟩,
  ⟨0x00000005, 0xFFFF00FF, fun a _ => .gfLog a⟩,
  ⟨0x00000006, 0xFFFF00FF, fun a _ => .genPoly a⟩,
  ⟨0x00000007, 0xFFFF00FF, fun a _ => .rsBlock a⟩,
  ⟨0x00000008, 0xFFFC00FF, fun a b => .rsEncode a (ecLevelOfBits (b.extractLsb' 0 2))⟩]

/-- Whether w selects the row (R84). -/
def OpRow.selects (r : OpRow) (w : Word) : Bool := w &&& r.mask = r.pattern

/-- Why a word is illegal (R88, R89). -/
inductive IllegalWord where
  /-- OP is 0x0 or 0x9 to 0xF: "Unassigned opcodes" (R89). -/
  | unassignedOpcode
  /-- OP is assigned, and a reserved bit of its format is set (R88). -/
  | reservedBit
deriving DecidableEq, Repr

/-- What a command word is: a command, or illegal by name (R90: every word is one or the other). -/
inductive Decoded where
  | command (i : Instr)
  | illegal (why : IllegalWord)
deriving DecidableEq, Repr

/-- Decodes a command word: the row it selects, or the reason no row does (R84, R88, R89). -/
def decode (w : Word) : Decoded :=
  match opcodeMap.find? fun r => r.selects w with
  | some r => .command (r.build (fieldA w) (fieldB w))
  | none =>
    if 1 ≤ (w.extractLsb' 0 4).toNat ∧ (w.extractLsb' 0 4).toNat ≤ 8 then .illegal .reservedBit
    else .illegal .unassignedOpcode

/-- A command word from its fields RSV1 = 0, B, A, and RSV0 = 0 with OP (R81). -/
def packWord (b a op : Byte) : Word := 0#8 ++ b ++ a ++ op

/-- The command word of an instruction (R93). -/
def encode : Instr → Word
  | .gfAdd a b => packWord b a 0x01
  | .gfMul a b => packWord b a 0x02
  | .gfDiv a b => packWord b a 0x03
  | .gfExp a => packWord 0 a 0x04
  | .gfLog a => packWord 0 a 0x05
  | .genPoly n => packWord 0 n 0x06
  | .rsBlock n => packWord 0 n 0x07
  | .rsEncode v e => packWord (0#6 ++ ecLevelBits e) v 0x08

/-- The instruction of an assembler line whose operands all fit 8 bits; of any other line, none (R93). -/
def AsmLine.assemble (l : AsmLine) : Option Instr :=
  if l.wellFormed then
    some <| match l with
      | .gfAdd a b => .gfAdd (BitVec.ofNat 8 a) (BitVec.ofNat 8 b)
      | .gfMul a b => .gfMul (BitVec.ofNat 8 a) (BitVec.ofNat 8 b)
      | .gfDiv a b => .gfDiv (BitVec.ofNat 8 a) (BitVec.ofNat 8 b)
      | .gfExp a => .gfExp (BitVec.ofNat 8 a)
      | .gfLog a => .gfLog (BitVec.ofNat 8 a)
      | .rsGen n => .genPoly (BitVec.ofNat 8 n)
      | .rsBlock n => .rsBlock (BitVec.ofNat 8 n)
      | .rsEncode v e => .rsEncode (BitVec.ofNat 8 v) e
  else none

/-- The command word made of the low nbits of w, every higher bit 0. -/
def tableWord (nbits w : Nat) : Word := BitVec.ofNat 32 (w % 2 ^ nbits)

/-- The host's entry: the instruction the decoder reads from a word numbered as spec/opcode_table.json numbers it. -/
def decodeTableWord (nbits w : Nat) : Option Instr :=
  match decode (tableWord nbits w) with
  | .command i => some i
  | .illegal _ => none

end Sys2Proof
end

