-- ==== Sys2Proof/Config.lean ====
section
/-!
DEFINITION. Config.lean: what is fixed for this hardware (00_scope.md R10), the OPEN parameters, and the free values.
An OPEN parameter or a free value is an opaque constant: no proof can learn its value.
-/
namespace Sys2Proof

/-- One row of the capacity table: five 8-bit unsigned fields (10_state.md R41). -/
structure CapRow where
  /-- group-1 block count -/
  g1c : Byte
  /-- data codewords per group-1 block -/
  g1k : Byte
  /-- group-2 block count; 0 means the symbol has no group 2 -/
  g2c : Byte
  /-- data codewords per group-2 block -/
  g2k : Byte
  /-- EC codewords per block -/
  nec : Byte
deriving DecidableEq, Repr, Inhabited

/-- The four rows of one version, one for each EC level (R41: CAPTABLE(v, e) is total on both). -/
structure CapRows where
  l : CapRow
  m : CapRow
  q : CapRow
  h : CapRow
deriving DecidableEq, Repr, Inhabited

/-- CAPTABLE: versions VMIN = 1 to VMAX = 40, version v at index v - 1 (R10, R41). -/
abbrev CapTable := Vector CapRows 40

/-- NMAX: the largest generator degree and the most EC codewords per block (R10). -/
def Config.nmax : Nat := 30

/-- CWMEM_BYTES = 2^AW with AW = 12 (R10, R39). -/
def Config.cwmemBytes : Nat := 4096

/-- The constant the ID register reads (R22). -/
def Config.idValue : Word := 0x52530001

/-- The constant the CAP register reads: NMAX in [7:0], AW in [15:8] (R23). -/
def Config.capValue : Word := 0x00000C1E

/-- The OPEN parameter CAPTABLE (R10, R182): what the capacity ROM holds at reset.
DESIGN CHOICE, log entry 5; safe: nothing is assumed of its contents, not even that a row is valid. -/
opaque Config.capTable : CapTable

/-- The OPEN parameter DEV_BASE (R10, R182): the host address of device offset 0x0000. Log entry 6; safe. -/
opaque Config.devBase : Nat

/-- LOG[0] "has no defined value" and no rule reads it (R37). Free value; log entry 9; safe. -/
opaque Config.logZero : Byte

/-- What a CWMEM byte that no write has defined holds: the spec "gives that byte no value" (R40, R176, R185).
Free value of how many aborts have made the byte unspecified, and of its address. Log entry 4; safe. -/
opaque Config.unspecifiedByte : Nat → Nat → Byte

/-- The host address of a device offset (R10, R21: "Offsets are relative to DEV_BASE"). -/
def Config.hostAddress (off : Offset) : Nat := Config.devBase + off.toNat

end Sys2Proof
end

