-- ==== Sys2Proof/Machine/State.lean ====
section
/-!
DEFINITION. Machine/State.lean: the state of the machine as plain data (10_state.md R20 to R48, 60_exceptions.md R158,
30_encoding.md R94), the reasons a run is marked or stopped, and the power-on reset state.
-/
namespace Sys2Proof.Machine

/-- The model faults of R158. The machine RECORDS them in State.faults (nothing clears them, and a run that has one is
never clean); no step of this machine ends a run with one. Log entries 3 and 7. -/
inductive Fault where
  /-- CWMEM byte a was read while DEF[a] = false (R40). Recorded by a host window read and by RS_BLOCK and RS_ENCODE.
  Safe: the byte read is a free value. -/
  | uninitRead (a : Nat)
  /-- The host accessed a reserved offset of the register region (R65, R158). Recorded by the bus. Safe: the access has
  the hardware's behaviour (reads 0, writes are ignored) and the run is marked. -/
  | reservedOffset (off : Offset)
deriving DecidableEq, Repr

/-- Why a step could give no meaning. -/
inductive Refusal where
  /-- The instruction has no meaning in this model. Raised by no arm of exec: all eight commands are modelled. Safe. -/
  | notModelled (mnemonic : String)
deriving DecidableEq, Repr

/-- The result codes of a command (R150). -/
inductive ErrCode where
  | illegalCmd
  | divZero
  | logZero
  | invalidDegree
  | invalidVersion
  | tableFault
  | lengthMismatch
  | addrRange
  | regionOverlap
deriving DecidableEq, Repr

/-- The two agents (R11). -/
inductive Agent where
  | host
  | engine
deriving DecidableEq, Repr

/-- The width of a host access. R59 and R60 name 8, 16 and 32 bits and "a wider access". -/
inductive AccessWidth where
  | b8
  | b16
  | b32
  | wider
deriving DecidableEq, Repr

/-- The bus responses (R62). -/
inductive BusResponse where
  | okay
  | error
deriving DecidableEq, Repr

/-- The operations of the host notation (R94), at any access width. A temporary t0, t1, ... is named by its number, a
label by the position it stands at in the program. -/
inductive HostOp where
  /-- A write of value to a device offset; an 8-bit write sends bits [7:0]. -/
  | write (off : Offset) (width : AccessWidth) (value : Word)
  /-- A read of a device offset into a temporary. -/
  | read (off : Offset) (width : AccessWidth) (temp : Nat)
  /-- bz t, M, L: branch when (t and M) = 0. -/
  | bz (temp : Nat) (mask : Word) (target : Nat)
  /-- bnz t, M, L: branch when (t and M) != 0. -/
  | bnz (temp : Nat) (mask : Word) (target : Nat)
  /-- halt: ends the host program (R193). -/
  | halt
deriving DecidableEq, Repr

/-- Where the host program stands (R193). -/
inductive HostStatus where
  | running
  /-- halt was executed with BUSY = 0: the run has ended. -/
  | halted
  /-- halt was executed with BUSY = 1: no clean end of a run (R193). -/
  | haltedBusy
deriving DecidableEq, Repr

/-- CWMEM together with the defined map DEF (R39, R40): byte a is listed exactly when DEF[a] is true. -/
abbrev Mem := List Host.Cell

/-- The whole state. -/
structure State where
  /-- CTRL.IE (R24) -/
  ie : Bool
  /-- STATUS.BUSY (R25) -/
  busy : Bool
  /-- STATUS.DONE (R25) -/
  done : Bool
  /-- STATUS.ERR (R25) -/
  err : Bool
  /-- STATUS.WERR (R25) -/
  werr : Bool
  /-- CMDLAST: the last command word accepted; the latched command while BUSY = 1 (R26, R42) -/
  cmdLast : Word
  /-- RESULT.RES (R27) -/
  result : Byte
  /-- ERRCODE.CODE (R28) -/
  errcode : BitVec 4
  /-- SRC.SRC (R29) -/
  src : BitVec 12
  /-- LEN.LEN (R30) -/
  len : BitVec 13
  /-- DST.DST (R31) -/
  dst : BitVec 12
  /-- GDEG.DEG (R32) -/
  gdeg : BitVec 6
  /-- GEOM0 = G2K:G2C:G1K:G1C (R33) -/
  geom0 : Word
  /-- GEOM1[28:0] = KTOT:NBLK:NEC; bits [31:29] read 0 (R34) -/
  geom1 : BitVec 29
  /-- ETOT.ETOT (R35) -/
  etot : BitVec 13
  /-- GEN[0..31] (R38) -/
  gen : Vector Byte 32
  /-- CWMEM and DEF (R39, R40) -/
  mem : Mem
  /-- CAPTABLE, a ROM: no step changes it (R20, R41, R49) -/
  capTable : CapTable
  /-- the fault set of R158, without repeats -/
  faults : List Fault
  /-- MODEL'S OWN (log entry 4): the (start, length) of each range an aborted command left unspecified (R185) -/
  lostRanges : List (Nat × Nat)
  /-- the host program (R94) -/
  hostProg : List HostOp
  /-- the position of the host's next operation -/
  hostPc : Nat
  /-- the host temporaries t0, t1, ... (R94); one beyond the list reads 0 (log entry 8) -/
  hostTemps : List Word
  /-- whether the host program has ended (R193) -/
  hostStatus : HostStatus
  /-- the response to the host's last access (R62); none before the first -/
  hostResp : Option BusResponse
  /-- MODEL'S OWN (log entry 1): whose turns come next; stands for LATENCY and for the interleaving of R163 -/
  schedule : List Agent
deriving DecidableEq, Repr

/-- The state right after power-on reset (R48, R175, R176): every register 0, no CWMEM byte defined, the ROMs holding
their contents. The host has no program yet (log entry 2). -/
def State.reset : State where
  ie := false
  busy := false
  done := false
  err := false
  werr := false
  cmdLast := 0
  result := 0
  errcode := 0
  src := 0
  len := 0
  dst := 0
  gdeg := 0
  geom0 := 0
  geom1 := 0
  etot := 0
  gen := Vector.replicate 32 0
  mem := []
  capTable := Config.capTable
  faults := []
  lostRanges := []
  hostProg := []
  hostPc := 0
  hostTemps := []
  hostStatus := .running
  hostResp := none
  schedule := []

end Sys2Proof.Machine
end

