-- ==== Sys2Proof/Machine/Flags.lean ====
section
/-!
DEFINITION. Machine/Flags.lean: the status flags BUSY, DONE, ERR, WERR, the numbers of the error codes, and the interrupt
output. RSE has no arithmetic condition codes (10_state.md R45).
-/
namespace Sys2Proof.Machine

/-- The value of ERRCODE.CODE for each error (R150). -/
def ErrCode.code : ErrCode → BitVec 4
  | .illegalCmd => 1
  | .divZero => 2
  | .logZero => 3
  | .invalidDegree => 4
  | .invalidVersion => 5
  | .tableFault => 6
  | .lengthMismatch => 7
  | .addrRange => 8
  | .regionOverlap => 9

/-- What a read of STATUS returns: BUSY, DONE, ERR, WERR in bits 0 to 3, the reserved bits 0 (R25). -/
def State.statusWord (s : State) : Word :=
  0#28 ++ BitVec.ofBool s.werr ++ BitVec.ofBool s.err ++ BitVec.ofBool s.done ++ BitVec.ofBool s.busy

/-- A write of v to STATUS: a 1 clears DONE, ERR or WERR; writing BUSY has no effect (R25). -/
def State.writeStatus (s : State) (v : Word) : State :=
  { s with
    done := s.done && !v.getLsbD 1
    err := s.err && !v.getLsbD 2
    werr := s.werr && !v.getLsbD 3 }

/-- The side effect of an access answered ERROR: WERR <- 1 (R62). -/
def State.setWerr (s : State) : State := { s with werr := true }

/-- The interrupt output: IRQ = CTRL.IE and STATUS.DONE (R46, R164). -/
def State.irq (s : State) : Bool := s.ie && s.done

/-- The flag updates every completion makes: BUSY <- 0 and DONE <- 1 (R160). -/
def State.endCommand (s : State) : State := { s with busy := false, done := true }

end Sys2Proof.Machine
end

