-- ==== Sys2Proof/Machine/Operands.lean ====
section
/-!
DEFINITION. Machine/Operands.lean: the operand forms of the commands: generator degree, version and EC level, capacity
row, and the data and destination ranges named by SRC, LEN and DST; with the checks of each command in the order of
60_exceptions.md R153. All sums and products are exact (40_gf_arith.md R109).
-/
namespace Sys2Proof

/-- The rows of one version at an EC level (R41). -/
def CapRows.row (r : CapRows) : EcLevel → CapRow
  | .L => r.l
  | .M => r.m
  | .Q => r.q
  | .H => r.h

/-- NBLK = G1C + G2C (R41). -/
def CapRow.nblk (r : CapRow) : Nat := r.g1c.toNat + r.g2c.toNat

/-- KTOT = G1C×G1K + G2C×G2K (R41). -/
def CapRow.ktot (r : CapRow) : Nat := r.g1c.toNat * r.g1k.toNat + r.g2c.toNat * r.g2k.toNat

/-- ETOT = NBLK × NEC (R137). -/
def CapRow.etot (r : CapRow) : Nat := r.nblk * r.nec.toNat

/-- The validity predicate of a row, clause by clause (R41). -/
def CapRow.valid (r : CapRow) : Bool :=
  (1 ≤ r.g1c.toNat && 1 ≤ r.g1k.toNat)
    && (1 ≤ r.nec.toNat && r.nec.toNat ≤ Config.nmax)
    && (r.g2c = 0 || r.g1k.toNat < r.g2k.toNat)
    && r.nblk ≤ 255
    && r.ktot ≤ Config.cwmemBytes
    && r.etot ≤ Config.cwmemBytes

namespace Machine

/-- The row CAPTABLE(v, e) for a version v in 1..40; none for a version outside (R41, R139). -/
def State.capRow (s : State) (v : Byte) (e : EcLevel) : Option CapRow :=
  if h : 1 ≤ v.toNat ∧ v.toNat ≤ 40 then
    some ((s.capTable.get ⟨v.toNat - 1, by omega⟩).row e)
  else none

/-- The degree check of GEN_POLY and RS_BLOCK: n = 0 or n > NMAX (R118, R132). -/
def degreeError (n : Byte) : Option ErrCode :=
  if n.toNat = 0 ∨ Config.nmax < n.toNat then some .invalidDegree else none

/-- The checks shared by RS_BLOCK and RS_ENCODE on the data range [SRC, SRC + k) and the destination [DST, DST + m):
ADDR_RANGE when either passes the end of CWMEM (R131, R137), then REGION_OVERLAP when they share a byte (R133, R138). -/
def State.rangeError (s : State) (k m : Nat) : Option ErrCode :=
  if Config.cwmemBytes < s.src.toNat + k ∨ Config.cwmemBytes < s.dst.toNat + m then some .addrRange
  else if 0 < k ∧ s.src.toNat < s.dst.toNat + m ∧ s.dst.toNat < s.src.toNat + k then some .regionOverlap
  else none

/-- The checks of RS_BLOCK in their order (R132, R153): INVALID_DEGREE, ADDR_RANGE, REGION_OVERLAP. -/
def State.blockError (s : State) (n : Byte) : Option ErrCode :=
  match degreeError n with
  | some c => some c
  | none => s.rangeError s.len.toNat n.toNat

/-- The checks of RS_ENCODE after the version, in their order (R139, R153): TABLE_FAULT, LENGTH_MISMATCH, ADDR_RANGE,
REGION_OVERLAP. -/
def State.rowError (s : State) (r : CapRow) : Option ErrCode :=
  if r.valid = false then some .tableFault
  else if s.len.toNat ≠ r.ktot then some .lengthMismatch
  else s.rangeError r.ktot r.etot

/-- The destination range (start, length) that a command would write if it completed now; none for a command that
writes no CWMEM byte or would fail its checks (R185). -/
def State.destinationOf (s : State) : Instr → Option (Nat × Nat)
  | .rsBlock n => if s.blockError n = none then some (s.dst.toNat, n.toNat) else none
  | .rsEncode v e =>
    match s.capRow v e with
    | some r => if s.rowError r = none then some (s.dst.toNat, r.etot) else none
    | none => none
  | .gfAdd _ _ => none
  | .gfMul _ _ => none
  | .gfDiv _ _ => none
  | .gfExp _ => none
  | .gfLog _ => none
  | .genPoly _ => none

end Machine
end Sys2Proof
end

