-- ==== Sys2Proof/Machine/Ops.lean ====
section
/-!
DEFINITION. Machine/Ops.lean: the named operations over CWMEM and the registers; accepting a command; and the two ways a
command ends, success (R161) and failure (R162). RSE takes no trap: an error saves no state and transfers no control
(R166), so State.raiseError is its whole exception entry, and there is no return from one (R167).
-/
namespace Sys2Proof.Machine

/-- What address a holds; none when nothing has defined it, that is DEF[a] = false (R40). -/
def Mem.lookup : Mem → Nat → Option Byte
  | [], _ => none
  | c :: m, a => if c.1 = a then some c.2 else Mem.lookup m a

/-- Writes byte v at address a, keeping the list sorted; DEF[a] becomes true (R40). -/
def Mem.insert : Mem → Nat → Byte → Mem
  | [], a, v => [(a, v)]
  | c :: m, a, v =>
    if a < c.1 then (a, v) :: c :: m
    else if a = c.1 then (a, v) :: m
    else c :: Mem.insert m a v

/-- Writes the bytes vs at addresses a, a + 1, ... (R15 MemWrite, byte by byte). -/
def Mem.insertAll : Mem → Nat → List Byte → Mem
  | m, _, [] => m
  | m, a, v :: vs => Mem.insertAll (m.insert a v) (a + 1) vs

/-- Makes the n bytes from start undefined: DEF false for each (R185). -/
def Mem.eraseRange (m : Mem) (start n : Nat) : Mem :=
  m.filter fun c => !(start ≤ c.1 && c.1 < start + n)

/-- The canonical form: addresses strictly rising, all inside CWMEM. An unlisted address reads as no value, so no entry
can equal what an unlisted address reads as. -/
abbrev Mem.wf (m : Mem) : Prop :=
  m.Pairwise (fun c d => c.1 < d.1) ∧ ∀ c ∈ m, c.1 < Config.cwmemBytes

/-- How many aborted destinations have held byte a: what the free value of an undefined byte depends on. -/
def State.timesLost (s : State) (a : Nat) : Nat :=
  s.lostRanges.countP fun r => r.1 ≤ a && a < r.1 + r.2

/-- CW[a] (R15): the byte written last, or, where DEF[a] = false, some byte the spec gives no value (R40, R176, R185). -/
def State.cw (s : State) (a : Nat) : Byte :=
  match s.mem.lookup a with
  | some b => b
  | none => Config.unspecifiedByte (s.timesLost a) a

/-- The bytes CW[start], ..., CW[start + k - 1] (R15). -/
def State.cwRange (s : State) (start k : Nat) : List Byte :=
  (List.range' start k).map s.cw

/-- Adds a fault to the fault set, which holds no repeats (R158). -/
def addFault (fs : List Fault) (f : Fault) : List Fault :=
  if f ∈ fs then fs else fs ++ [f]

/-- The addresses in [start, start + k) with DEF false (R40). -/
def State.undefinedIn (s : State) (start k : Nat) : List Nat :=
  (List.range' start k).filter fun a => (s.mem.lookup a).isNone

/-- Records UninitRead(a) for every byte a of [start, start + k) with DEF[a] = false (R40, R158). Log entry 3. -/
def State.recordUninit (s : State) (start k : Nat) : State :=
  { s with faults := (s.undefinedIn start k).foldl (fun fs a => addFault fs (.uninitRead a)) s.faults }

/-- Records an access to a reserved offset (R65, R158). Log entry 7. -/
def State.recordReserved (s : State) (off : Offset) : State :=
  { s with faults := addFault s.faults (.reservedOffset off) }

/-- CW[start + i] <- vs[i] for each i (R15). -/
def State.writeCw (s : State) (start : Nat) (vs : List Byte) : State :=
  { s with mem := s.mem.insertAll start vs }

/-- The n bytes from start lose their value: DEF false, and a free value in each (R40, R185). -/
def State.loseRange (s : State) (start n : Nat) : State :=
  { s with mem := s.mem.eraseRange start n, lostRanges := s.lostRanges ++ [(start, n)] }

/-- Acceptance of a command word, in one HOST step (R156). -/
def State.accept (s : State) (w : Word) : State :=
  { s with cmdLast := w, busy := true, done := false, err := false, errcode := 0 }

/-- complete(): the command ends successfully; ERRCODE <- 0, and ERR stays as acceptance left it (R103, R161). -/
def State.complete (s : State) : State :=
  { s.endCommand with errcode := 0 }

/-- raise Error(code): the command ends having written nothing but the status (R162). -/
def State.raiseError (s : State) (c : ErrCode) : State :=
  { s.endCommand with err := true, errcode := c.code }

/-- RESULT.RES <- v; complete() (R103). -/
def State.completeWith (s : State) (v : Byte) : State :=
  { s.complete with result := v }

/-- The command the engine decodes from CMDLAST at its step (R160). -/
def State.latched (s : State) : Decoded := decode s.cmdLast

end Sys2Proof.Machine
end

