-- ==== Sys2Proof/Machine/GfArith.lean ====
section
/-!
DEFINITION. Machine/GfArith.lean: the field operations by log/antilog tables and the five GF commands
(40_gf_arith.md). The commands read no CWMEM byte and no operand register (R103).
-/
namespace Sys2Proof.Machine

/-- Field addition, and equally subtraction (R99). -/
def gfadd (a b : Byte) : Byte := a ^^^ b

/-- Field multiplication (R100). -/
def gfmul (a b : Byte) : Byte :=
  if a = 0 ∨ b = 0 then 0 else expRom ((logRom a + logRom b) % 255)

/-- Field division; precondition b != 0 (R101). The exponent's difference is an exact integer reduced into 0..254. -/
def gfdiv (a b : Byte) : Byte :=
  if a = 0 then 0 else expRom (((logRom a : Int) - (logRom b : Int)) % 255).toNat

/-- GF_ADD (R104). -/
def execGfAdd (a b : Byte) (s : State) : Host.Outcome State Fault Refusal :=
  .next (s.completeWith (gfadd a b))

/-- GF_MUL (R105). -/
def execGfMul (a b : Byte) (s : State) : Host.Outcome State Fault Refusal :=
  .next (s.completeWith (gfmul a b))

/-- GF_DIV (R106): DIV_ZERO when the divisor is 0. -/
def execGfDiv (a b : Byte) (s : State) : Host.Outcome State Fault Refusal :=
  .next (if b = 0 then s.raiseError .divZero else s.completeWith (gfdiv a b))

/-- GF_EXP (R107). -/
def execGfExp (a : Byte) (s : State) : Host.Outcome State Fault Refusal :=
  .next (s.completeWith (expRom (a.toNat % 255)))

/-- GF_LOG (R108): LOG_ZERO when the element is 0. -/
def execGfLog (a : Byte) (s : State) : Host.Outcome State Fault Refusal :=
  .next (if a = 0 then s.raiseError .logZero else s.completeWith (BitVec.ofNat 8 (logRom a)))

end Sys2Proof.Machine
end

