-- ==== Sys2Proof/Machine/Generator.lean ====
section
/-!
DEFINITION. Machine/Generator.lean: the generator polynomial and GEN_POLY (41_generator.md). A coefficient list holds
the coefficient of x^j at index j (R17).
-/
namespace Sys2Proof.Machine

/-- One round of GenPoly: multiplies by (x + c) the polynomial whose coefficients, from some power of x up, are listed,
prev being the coefficient just below the first (R117: G[j] <- gfadd(G[j-1], gfmul(G[j], c))). -/
def mulLinear (c : Byte) : Byte → List Byte → List Byte
  | prev, [] => [prev]
  | prev, g :: gs => gfadd prev (gfmul g c) :: mulLinear c g gs

/-- GenPoly(n): the n + 1 coefficients of (x + ALPHA^0)...(x + ALPHA^(n-1)) (R116, R117). -/
def genPoly : Nat → List Byte
  | 0 => [1]
  | n + 1 => mulLinear (expRom n) 0 (genPoly n)

/-- The contents of GEN[0..31] for degree n: GEN[i] is the coefficient of x^i up to n, and 0 above (R38, R118). -/
def genRegisters (n : Nat) : Vector Byte 32 :=
  Vector.ofFn fun i => if i.val ≤ n then (genPoly n).getD i.val 0 else 0

/-- GEN and GDEG take the generator of degree n (R118, R119, R142). -/
def State.setGenerator (s : State) (n : Nat) : State :=
  { s with gen := genRegisters n, gdeg := BitVec.ofNat 6 n }

/-- GEN_POLY (R118): INVALID_DEGREE when n = 0 or n > NMAX. -/
def execGenPoly (n : Byte) (s : State) : Host.Outcome State Fault Refusal :=
  .next (match degreeError n with
    | some c => s.raiseError c
    | none => (s.setGenerator n.toNat).complete)

end Sys2Proof.Machine
end

