-- ==== Sys2Proof/Machine/RsEncode.lean ====
section
/-!
DEFINITION. Machine/RsEncode.lean: the EC codewords of a block, RS_BLOCK and RS_ENCODE (42_rs_encode.md).
-/
namespace Sys2Proof.Machine

/-- One step of the division: the register R (R[j] at index j) takes in the data codeword d (R128, the loop body). -/
def remStep (g : List Byte) (r : List Byte) (d : Byte) : List Byte :=
  let f := gfadd d (r.getLastD 0)
  List.zipWith (fun low gj => gfadd low (gfmul f gj)) (0 :: r.dropLast) g

/-- The EC codewords E[0..n-1] of the block of data codewords ds, in output order: E[i] = R[n-1-i] (R127, R128). -/
def rsRem (ds : List Byte) (n : Nat) : List Byte :=
  (ds.foldl (remStep ((genPoly n).take n)) (List.replicate n 0)).reverse

/-- What a successful RS_BLOCK commits (R132, R142): the destination bytes, GEN, GDEG and the status. -/
def State.commitBlock (s : State) (n : Nat) : State :=
  let ec := rsRem (s.cwRange s.src.toNat s.len.toNat) n
  ((((s.recordUninit s.src.toNat s.len.toNat).writeCw s.dst.toNat ec).setGenerator n).complete)

/-- RS_BLOCK (R132). -/
def execRsBlock (n : Byte) (s : State) : Host.Outcome State Fault Refusal :=
  .next (match s.blockError n with
    | some c => s.raiseError c
    | none => s.commitBlock n.toNat)

/-- The number of data codewords of each block, group 1 first (R141). -/
def blockLengths (r : CapRow) : List Nat :=
  List.replicate r.g1c.toNat r.g1k.toNat ++ List.replicate r.g2c.toNat r.g2k.toNat

/-- The EC codewords of consecutive blocks of the given lengths cut from the data in stream order: each block's EC
codewords follow the one's before, with no gaps (R139, R141, R143). -/
def encodeBlocks (n : Nat) : List Nat → List Byte → List Byte
  | [], _ => []
  | k :: ks, ds => rsRem (ds.take k) n ++ encodeBlocks n ks (ds.drop k)

/-- GEOM0, GEOM1 and ETOT take the geometry of the row (R33, R34, R35, R139). -/
def State.setGeometry (s : State) (r : CapRow) : State :=
  { s with
    geom0 := r.g2k ++ r.g2c ++ r.g1k ++ r.g1c
    geom1 := BitVec.ofNat 13 r.ktot ++ BitVec.ofNat 8 r.nblk ++ r.nec
    etot := BitVec.ofNat 13 r.etot }

/-- What a successful RS_ENCODE commits (R139, R142): the destination bytes, GEN, GDEG, the geometry and the status. -/
def State.commitEncode (s : State) (r : CapRow) : State :=
  let ec := encodeBlocks r.nec.toNat (blockLengths r) (s.cwRange s.src.toNat r.ktot)
  (((((s.recordUninit s.src.toNat r.ktot).writeCw s.dst.toNat ec).setGenerator r.nec.toNat).setGeometry r).complete)

/-- RS_ENCODE (R139): INVALID_VERSION first, then the checks on the row. -/
def execRsEncode (v : Byte) (e : EcLevel) (s : State) : Host.Outcome State Fault Refusal :=
  .next (match s.capRow v e with
    | none => s.raiseError .invalidVersion
    | some r =>
      match s.rowError r with
      | some c => s.raiseError c
      | none => s.commitEncode r)

end Sys2Proof.Machine
end

