-- ==== Sys2Proof/Machine/Dispatch.lean ====
section
/-!
DEFINITION. Machine/Dispatch.lean: the meaning of each command: the ENGINE's completion step of it (60_exceptions.md R160).
-/
namespace Sys2Proof.Machine

def exec (i : Instr) (s : State) : Host.Outcome State Fault Refusal :=
  match i with
  | .gfAdd a b => Sys2Proof.Machine.execGfAdd a b s
  | .gfMul a b => Sys2Proof.Machine.execGfMul a b s
  | .gfDiv a b => Sys2Proof.Machine.execGfDiv a b s
  | .gfExp a => Sys2Proof.Machine.execGfExp a s
  | .gfLog a => Sys2Proof.Machine.execGfLog a s
  | .genPoly n => Sys2Proof.Machine.execGenPoly n s
  | .rsBlock n => Sys2Proof.Machine.execRsBlock n s
  | .rsEncode v e => Sys2Proof.Machine.execRsEncode v e s

end Sys2Proof.Machine
end

