-- ==== Sys2Proof/Machine/Engine.lean ====
section
/-!
DEFINITION. Machine/Engine.lean: the ENGINE agent (60_exceptions.md R159, R160).
-/
namespace Sys2Proof.Machine

/-- The ENGINE's turn: with BUSY = 1 it completes the latched command, an illegal word with ILLEGAL_CMD (R90, R153,
R160); with BUSY = 0 it has no step (R159). -/
def engineStep (s : State) : Host.Outcome State Fault Refusal :=
  if s.busy then
    match s.latched with
    | .command i => exec i s
    | .illegal _ => .next (s.raiseError .illegalCmd)
  else .next s

/-- The command word w is latched and the next turn is the ENGINE's (R156, R160). -/
def State.withLatched (s : State) (w : Word) : State :=
  { s.accept w with schedule := .engine :: s.schedule }

end Sys2Proof.Machine
end

