-- ==== Sys2Proof/Machine/Bus.lean ====
section
/-!
DEFINITION. Machine/Bus.lean: the device's side of a host access: the register map, the CWMEM window, the responses, the
busy refusals, and SOFT_RESET (10_state.md R21 to R47, 20_memory.md R57 to R69, 70_reset_and_hazards.md R183 to R185).
-/
namespace Sys2Proof.Machine

/-- The device registers (R21). -/
inductive DevReg where
  | id
  | cap
  | ctrl
  | status
  | cmd
  | result
  | errcode
  | src
  | len
  | dst
  | gdeg
  | geom0
  | geom1
  | etot
  | gen (i : Fin 32)
deriving DecidableEq, Repr

/-- The register at a 4-byte-aligned offset of the register region; none at a reserved offset (R21, R58). -/
def regAt (off : Nat) : Option DevReg :=
  if h : 0x080 ≤ off ∧ off < 0x100 then some (.gen ⟨(off - 0x080) / 4, by omega⟩)
  else
    [DevReg.id, .cap, .ctrl, .status, .cmd, .result, .errcode, .src, .len, .dst, .gdeg, .geom0, .geom1, .etot][off / 4]?

/-- What a legal host access addresses. -/
inductive Target where
  | reg (r : DevReg)
  /-- a reserved offset of the register region (R65) -/
  | reserved
  /-- CWMEM byte a, by an 8-bit access (R60) -/
  | byte (a : Nat)
  /-- CWMEM bytes a to a + 3, by an aligned 32-bit access (R60) -/
  | word (a : Nat)
deriving DecidableEq, Repr

/-- What an access addresses; none when its width or alignment is not legal (R59, R60, R63). -/
def accessTarget (off : Offset) (w : AccessWidth) : Option Target :=
  if off.toNat < 0x1000 then
    if w = .b32 ∧ off.toNat % 4 = 0 then
      some (match regAt off.toNat with
        | some r => .reg r
        | none => .reserved)
    else none
  else
    match w with
    | .b8 => some (.byte (off.toNat - 0x1000))
    | .b32 => if off.toNat % 4 = 0 then some (.word (off.toNat - 0x1000)) else none
    | .b16 => none
    | .wider => none

/-- What a read of a register returns, reserved bits 0 (R21 to R38). -/
def State.readReg (s : State) : DevReg → Word
  | .id => Config.idValue
  | .cap => Config.capValue
  | .ctrl => 0#31 ++ BitVec.ofBool s.ie
  | .status => s.statusWord
  | .cmd => s.cmdLast
  | .result => s.result.setWidth 32
  | .errcode => s.errcode.setWidth 32
  | .src => s.src.setWidth 32
  | .len => s.len.setWidth 32
  | .dst => s.dst.setWidth 32
  | .gdeg => s.gdeg.setWidth 32
  | .geom0 => s.geom0
  | .geom1 => s.geom1.setWidth 32
  | .etot => s.etot.setWidth 32
  | .gen i => (s.gen.get i).setWidth 32

/-- A latched RS_BLOCK or RS_ENCODE that would pass its checks is aborted: its destination range becomes unspecified
(R185). Nothing when no command is latched or the latched one writes no CWMEM byte. -/
def State.abortLatched (s : State) : State :=
  if s.busy then
    match s.latched with
    | .command i =>
      match s.destinationOf i with
      | some (start, n) => s.loseRange start n
      | none => s
    | .illegal _ => s
  else s

/-- SOFT_RESET (R184): every register returns to its reset value, a latched command is discarded, CWMEM is kept except
as R185 states. The ROMs, the model's fault set (R158) and the host are untouched. -/
def State.softReset (s : State) : State :=
  { s.abortLatched with
    ie := false
    busy := false
    done := false
    err := false
    werr := false
    cmdLast := 0
    result := 0
    errcode := 0
    src := 0
    len := 0
    dst := 0
    gdeg := 0
    geom0 := 0
    geom1 := 0
    etot := 0
    gen := Vector.replicate 32 0 }

/-- A write to CTRL: bit [1] = 1 is a soft reset as its whole effect, otherwise IE takes bit [0] (R24, R183). -/
def State.writeCtrl (s : State) (v : Word) : State :=
  if v.getLsbD 1 then s.softReset else { s with ie := v.getLsbD 0 }

/-- The effect of an accepted write to a register; a write to a read-only one is ignored (R47, R69). -/
def State.writeReg (s : State) (r : DevReg) (v : Word) : State :=
  match r with
  | .ctrl => s.writeCtrl v
  | .status => s.writeStatus v
  | .cmd => s.accept v
  | .src => { s with src := v.extractLsb' 0 12 }
  | .len => { s with len := v.extractLsb' 0 13 }
  | .dst => { s with dst := v.extractLsb' 0 12 }
  | .id => s
  | .cap => s
  | .result => s
  | .errcode => s
  | .gdeg => s
  | .geom0 => s
  | .geom1 => s
  | .etot => s
  | .gen _ => s

/-- The registers whose writes are refused while BUSY = 1 (R67). -/
def DevReg.closedWhileBusy : DevReg → Bool
  | .src => true
  | .len => true
  | .dst => true
  | .cmd => true
  | .id => false
  | .cap => false
  | .ctrl => false
  | .status => false
  | .result => false
  | .errcode => false
  | .gdeg => false
  | .geom0 => false
  | .geom1 => false
  | .etot => false
  | .gen _ => false

/-- What a host access gets back and leaves: exactly one response, the data of a read (0 for a write), the new state. -/
structure BusResult where
  resp : BusResponse
  data : Word
  state : State
deriving DecidableEq, Repr

/-- An access answered ERROR: no effect but WERR <- 1, and the data value 0 (R62). -/
def State.busError (s : State) : BusResult := ⟨.error, 0, s.setWerr⟩

/-- The four bytes CW[a..a+3] as one little-endian value (R61). -/
def State.cwWord (s : State) (a : Nat) : Word := s.cw (a + 3) ++ s.cw (a + 2) ++ s.cw (a + 1) ++ s.cw a

/-- The four bytes of a value in little-endian order (R61). -/
def wordBytes (v : Word) : List Byte :=
  [v.extractLsb' 0 8, v.extractLsb' 8 8, v.extractLsb' 16 8, v.extractLsb' 24 8]

/-- A host read (R59 to R67). A window read of an undefined byte records UninitRead (R40). -/
def State.busRead (s : State) (off : Offset) (w : AccessWidth) : BusResult :=
  match accessTarget off w with
  | none => s.busError
  | some (.reg r) => ⟨.okay, s.readReg r, s⟩
  | some .reserved => ⟨.okay, 0, s.recordReserved off⟩
  | some (.byte a) => if s.busy then s.busError else ⟨.okay, (s.cw a).setWidth 32, s.recordUninit a 1⟩
  | some (.word a) => if s.busy then s.busError else ⟨.okay, s.cwWord a, s.recordUninit a 4⟩

/-- A host write of v (R59 to R67). -/
def State.busWrite (s : State) (off : Offset) (w : AccessWidth) (v : Word) : BusResult :=
  match accessTarget off w with
  | none => s.busError
  | some (.reg r) => if s.busy && r.closedWhileBusy then s.busError else ⟨.okay, 0, s.writeReg r v⟩
  | some .reserved => ⟨.okay, 0, s.recordReserved off⟩
  | some (.byte a) => if s.busy then s.busError else ⟨.okay, 0, s.writeCw a [v.extractLsb' 0 8]⟩
  | some (.word a) => if s.busy then s.busError else ⟨.okay, 0, s.writeCw a (wordBytes v)⟩

end Sys2Proof.Machine
end

