-- ==== Sys2Proof/Machine/HostAgent.lean ====
section
/-!
DEFINITION. Machine/HostAgent.lean: the HOST agent: one operation of its program in one step (30_encoding.md R94,
20_memory.md R70), the pseudo-instructions of R94, and whose turn is next (60_exceptions.md R163).
-/
namespace Sys2Proof.Machine

/-- The value of the temporary t; one never written reads 0 (log entry 8). -/
def tempValue (ts : List Word) (t : Nat) : Word := ts.getD t 0

/-- The temporary t takes v. -/
def setTemp : List Word → Nat → Word → List Word
  | [], 0, v => [v]
  | [], t + 1, v => 0 :: setTemp [] t v
  | _ :: ts, 0, v => v :: ts
  | x :: ts, t + 1, v => x :: setTemp ts t v

/-- The host takes the result of an access: the response, and the data of a read; then its next operation. -/
def State.afterAccess (b : BusResult) (temp : Option Nat) : State :=
  { b.state with
    hostResp := some b.resp
    hostPc := b.state.hostPc + 1
    hostTemps := match temp with
      | some t => setTemp b.state.hostTemps t b.data
      | none => b.state.hostTemps }

/-- The host goes to the target when its branch is taken, else to its next operation. -/
def State.hostBranch (s : State) (taken : Bool) (target : Nat) : State :=
  { s with hostPc := if taken then target else s.hostPc + 1 }

/-- One host operation (R94). -/
def State.hostExec (s : State) : HostOp → State
  | .write off w v => State.afterAccess (s.busWrite off w v) none
  | .read off w t => State.afterAccess (s.busRead off w) (some t)
  | .bz t m target => s.hostBranch ((tempValue s.hostTemps t &&& m) = 0) target
  | .bnz t m target => s.hostBranch ((tempValue s.hostTemps t &&& m) ≠ 0) target
  | .halt => { s with hostStatus := if s.busy then .haltedBusy else .halted }

/-- The host's next operation; none once it has halted, or past the end of its program (log entry 8). -/
def State.hostNext (s : State) : Option HostOp :=
  if s.hostStatus = .running then s.hostProg[s.hostPc]? else none

/-- The HOST's turn: its next operation, or nothing where it has none. -/
def State.hostStep (s : State) : State :=
  match s.hostNext with
  | some op => s.hostExec op
  | none => s

/-- Whose turn is next. When no turn is fixed, the engine's if it has a command and the host's otherwise
(log entry 1). -/
def State.turn (s : State) : Agent :=
  match s.schedule with
  | a :: _ => a
  | [] => if s.busy then .engine else .host

/-- The state in which that turn is taken: the turn is used up. -/
def State.takeTurn (s : State) : State := { s with schedule := s.schedule.tail }

/-- Device offsets of the registers a host program names (R21). -/
def ctrlOffset : Offset := 0x008
def statusOffset : Offset := 0x00C
def cmdOffset : Offset := 0x010
def resultOffset : Offset := 0x014
def errcodeOffset : Offset := 0x018
def srcOffset : Offset := 0x01C
def lenOffset : Offset := 0x020
def dstOffset : Offset := 0x024

/-- CW+a: the window offset of CWMEM byte a, a = 0..4095 (R58, R94). For a >= 4096 the spec gives no meaning (R66).
DESIGN CHOICE, log entry 18; unsafe: 0x1000 + a is then reduced mod 2^13, so CW+4096 names the register offset 0x000. -/
def cwOffset (a : Nat) : Offset := BitVec.ofNat 13 (0x1000 + a)

/-- wr32 OFF, V (R94). -/
def wr32 (off : Offset) (v : Word) : HostOp := .write off .b32 v
/-- wr8 OFF, V (R94). -/
def wr8 (off : Offset) (v : Byte) : HostOp := .write off .b8 (v.setWidth 32)
/-- rd32 OFF -> t (R94). -/
def rd32 (off : Offset) (t : Nat) : HostOp := .read off .b32 t
/-- rd8 OFF -> t (R94). -/
def rd8 (off : Offset) (t : Nat) : HostOp := .read off .b8 t

/-- issue X: a write of X's command word to CMD (R94). -/
def issue (i : Instr) : HostOp := wr32 cmdOffset (encode i)

/-- wait_done, standing at position pos of its program and using temporary t: polls STATUS until DONE = 1 (R94, R189). -/
def waitDone (pos t : Nat) : List HostOp := [rd32 statusOffset t, .bz t 0x2 pos]

/-- run X, standing at position pos: issue X, then wait_done (R94). -/
def run (pos t : Nat) (i : Instr) : List HostOp := issue i :: waitDone (pos + 1) t

/-- ack: clears DONE and ERR (R94). -/
def ack : HostOp := wr32 statusOffset 0x6

end Sys2Proof.Machine
end

