-- ==== Sys2Proof/Machine/Step.lean ====
section
/-!
DEFINITION. Machine/Step.lean: one step of the machine: the agent whose turn it is takes it (00_scope.md R11,
60_exceptions.md R163).
-/
namespace Sys2Proof.Machine

/-- One step. When neither agent has anything to do the state stays as it is (R159, R196). -/
def step (s : State) : Host.Outcome State Fault Refusal :=
  match s.turn with
  | .engine => engineStep s.takeTurn
  | .host => .next s.takeTurn.hostStep

/-- The host's entry: s with the command word w accepted and the engine's turn next, so that the next step runs it
(log entry 2). -/
def State.withFetchWord (s : State) (nbits w : Nat) : State := s.withLatched (tableWord nbits w)

end Sys2Proof.Machine
end

