-- ==== Sys2Proof/Safety.lean ====
section
/-!
DEFINITION. Safety.lean: the terms claims are stated in: the end of a run (70_reset_and_hazards.md R193), the invariant of
the machine, and GF(256) polynomials written independently of the log/antilog tables (40_gf_arith.md R96 to R98).
-/
namespace Sys2Proof.Machine

/-- The host program has ended and the engine has no step left: a final state of a run (R193, 93 item 11). -/
def State.Final (s : State) : Prop := s.hostStatus ≠ .running ∧ s.busy = false

/-- The run is clean: it ended by a halt with BUSY = 0, no fault was recorded and WERR = 0 (R158, R193). -/
def State.Clean (s : State) : Prop :=
  s.hostStatus = .halted ∧ s.busy = false ∧ s.faults = [] ∧ s.werr = false

/-- The field G1C of GEOM0 (R33). -/
def State.geomG1c (s : State) : Nat := (s.geom0.extractLsb' 0 8).toNat
/-- The field G1K of GEOM0 (R33). -/
def State.geomG1k (s : State) : Nat := (s.geom0.extractLsb' 8 8).toNat
/-- The field G2C of GEOM0 (R33). -/
def State.geomG2c (s : State) : Nat := (s.geom0.extractLsb' 16 8).toNat
/-- The field G2K of GEOM0 (R33). -/
def State.geomG2k (s : State) : Nat := (s.geom0.extractLsb' 24 8).toNat
/-- The field NEC of GEOM1 (R34). -/
def State.geomNec (s : State) : Nat := (s.geom1.extractLsb' 0 8).toNat
/-- The field NBLK of GEOM1 (R34). -/
def State.geomNblk (s : State) : Nat := (s.geom1.extractLsb' 8 8).toNat
/-- The field KTOT of GEOM1 (R34). -/
def State.geomKtot (s : State) : Nat := (s.geom1.extractLsb' 16 13).toNat

/-- What holds of the machine at reset and after every step. -/
structure State.Inv (s : State) : Prop where
  /-- CWMEM is in canonical form: addresses rising and inside the 4096 bytes (R39). -/
  memory : s.mem.wf
  /-- GDEG is "always 0 or in 1..NMAX" (R32). -/
  degree : s.gdeg.toNat ≤ Config.nmax
  /-- GEN holds the generator of degree GDEG; all zero while none has been built (R32, R38). -/
  generator : s.gen = if s.gdeg = 0 then Vector.replicate 32 0 else genRegisters s.gdeg.toNat
  /-- "ERRCODE values 10 to 15 are never produced" (R152). -/
  code : s.errcode.toNat ≤ 9
  /-- STATUS.ERR = 1 only beside an error code (R25, R162). -/
  error : s.err = true → s.errcode ≠ 0
  /-- While a command runs DONE, ERR and ERRCODE are as its acceptance left them (R156). -/
  pending : s.busy = true → s.done = false ∧ s.err = false ∧ s.errcode = 0
  /-- GEOM0, GEOM1 and ETOT belong to one row (R34, R35): NBLK = G1C + G2C, KTOT, ETOT = NBLK × NEC. -/
  blocks : s.geomNblk = s.geomG1c + s.geomG2c
  dataTotal : s.geomKtot = s.geomG1c * s.geomG1k + s.geomG2c * s.geomG2k
  ecTotal : s.etot.toNat = s.geomNblk * s.geomNec
  /-- The fault set is a set (R158). -/
  faultSet : s.faults.Nodup

/-- Multiplication by x modulo PRIM = 0x11D (R98). -/
def xtime (v : Byte) : Byte := if v.getLsbD 7 then (v <<< 1) ^^^ 0x1D else v <<< 1

/-- The product of two bytes read as polynomials over GF(2), modulo PRIM (R96, R97): a · (b7 x^7 + ... + b0), by Horner's
rule from bit k - 1 of b down. The tables play no part in it. -/
def polyProduct (a b : Byte) : Nat → Byte
  | 0 => 0
  | k + 1 => xtime (polyProduct a (b >>> 1) k) ^^^ (if b.getLsbD 0 then a else 0)

/-- The coefficient of x^j of a polynomial given from x^0 up (R17). -/
def coeff (p : List Byte) (j : Nat) : Byte := p.getD j 0

/-- The coefficient of x^j of the product p(x) q(x) over GF(256). -/
def productCoeff (p q : List Byte) (j : Nat) : Byte :=
  (List.range (j + 1)).foldl (fun acc i => gfadd acc (gfmul (coeff p i) (coeff q (j - i)))) 0

/-- The value at x of the polynomial whose coefficients are given from the highest degree down, the stream order of a
codeword polynomial (R125, R129). -/
def evalStream (cs : List Byte) (x : Byte) : Byte := cs.foldl (fun acc c => gfadd (gfmul acc x) c) 0

/-- The coefficients from x^0 up of d(x) · x^n, d(x) having the data codewords ds as coefficients from the highest degree
down (R125, R126). -/
def shiftedData (ds : List Byte) (n : Nat) : List Byte := List.replicate n 0 ++ ds.reverse

/-- The start of block j from SRC (R141). -/
def blockOffset (r : CapRow) (j : Nat) : Nat :=
  if j < r.g1c.toNat then j * r.g1k.toNat
  else r.g1c.toNat * r.g1k.toNat + (j - r.g1c.toNat) * r.g2k.toNat

/-- The number K_j of data codewords of block j (R141). -/
def blockLength (r : CapRow) (j : Nat) : Nat := if j < r.g1c.toNat then r.g1k.toNat else r.g2k.toNat

end Sys2Proof.Machine
end

