-- ==== Sys2Proof/Certificates/Slice0/Obligations.lean ====
section
/-!
DEFINITION. Certificates/Slice0/Obligations.lean: the statements for the provers, each a Prop, from the numbered rules of
spec/. A state after a completed command is written as the whole record, so that such a statement is the result, the frame
and the completion of the command at once. In these records success writes ERRCODE = 0 and leaves ERR as acceptance left
it (log entry 11).
-/
open Sys2Proof Sys2Proof.Machine

/-! ## Encoding (30_encoding.md) -/

/-- R95: the worked encodings, as assembled words and as decoded words, and the two illegal words. -/
def Obligations.WorkedEncodings : Prop :=
  (AsmLine.gfMul 0x53 0xCA).assemble.map encode = some 0x00CA5302 ∧
  (AsmLine.gfExp 8).assemble.map encode = some 0x00000804 ∧
  (AsmLine.rsGen 7).assemble.map encode = some 0x00000706 ∧
  (AsmLine.rsBlock 10).assemble.map encode = some 0x00000A07 ∧
  (AsmLine.rsEncode 1 .Q).assemble.map encode = some 0x00020108 ∧
  (AsmLine.rsEncode 5 .Q).assemble.map encode = some 0x00020508 ∧
  (AsmLine.rsEncode 40 .H).assemble.map encode = some 0x00032808 ∧
  decode 0x00CA5302 = .command (.gfMul 0x53 0xCA) ∧
  decode 0x00000804 = .command (.gfExp 8) ∧
  decode 0x00000706 = .command (.genPoly 7) ∧
  decode 0x00000A07 = .command (.rsBlock 10) ∧
  decode 0x00020108 = .command (.rsEncode 1 .Q) ∧
  decode 0x00020508 = .command (.rsEncode 5 .Q) ∧
  decode 0x00032808 = .command (.rsEncode 40 .H) ∧
  decode 0x00010107 = .illegal .reservedBit ∧
  decode 0x00000000 = .illegal .unassignedOpcode

/-- Decoding the word of any command gives the command back: every operand at every value its word can carry. -/
def Obligations.DecodeOfEncode : Prop :=
  ∀ i : Instr, decode (encode i) = .command i

/-- The other direction: a word that decodes is the word of what it decodes to, so no bit of a legal word is ignored. -/
def Obligations.EncodeOfDecode : Prop :=
  ∀ (w : Word) (i : Instr), decode w = .command i → encode i = w

/-- R84 against R90: the words the opcode map selects are exactly the words the legality predicate allows. -/
def Obligations.DecodesExactlyLegalWords : Prop :=
  ∀ w : Word, (∃ i, decode w = .command i) ↔ legalWord w = true

/-- R84: "so the rows are disjoint". -/
def Obligations.OpcodeRowsDisjoint : Prop :=
  opcodeMap.Pairwise fun r q => ∀ w : Word, ¬ (r.selects w = true ∧ q.selects w = true)

/-- R89: the unassigned OP values select no row, and every word with one is illegal. -/
def Obligations.UnassignedOpcodesRejected : Prop :=
  ∀ w : Word, (w.extractLsb' 0 4 = 0 ∨ 9 ≤ (w.extractLsb' 0 4).toNat) →
    (∀ r ∈ opcodeMap, r.selects w = false) ∧ decode w = .illegal .unassignedOpcode ∧ legalWord w = false

/-- R88: a word with any reserved bit of its format set decodes to nothing, whatever its OP. -/
def Obligations.ReservedBitsRejected : Prop :=
  ∀ w : Word,
    (w.extractLsb' 4 4 ≠ 0 ∨ w.extractLsb' 24 8 ≠ 0 ∨
      (4 ≤ (w.extractLsb' 0 4).toNat ∧ (w.extractLsb' 0 4).toNat ≤ 7 ∧ w.extractLsb' 16 8 ≠ 0) ∨
      (w.extractLsb' 0 4 = 8 ∧ w.extractLsb' 18 6 ≠ 0)) →
    legalWord w = false ∧ ¬ ∃ i, decode w = .command i

/-- R93: the word each assembler line gives, by the shifts the table prints and with the EC-level codes L = 0, M = 1,
Q = 2, H = 3 (R83), and no word where an operand is 256 or more. -/
def Obligations.AssembledWords : Prop :=
  (∀ a b : Nat, a < 256 → b < 256 →
    (AsmLine.gfAdd a b).assemble.map encode
      = some (0x00000001 ||| (BitVec.ofNat 32 b <<< 16) ||| (BitVec.ofNat 32 a <<< 8)) ∧
    (AsmLine.gfMul a b).assemble.map encode
      = some (0x00000002 ||| (BitVec.ofNat 32 b <<< 16) ||| (BitVec.ofNat 32 a <<< 8)) ∧
    (AsmLine.gfDiv a b).assemble.map encode
      = some (0x00000003 ||| (BitVec.ofNat 32 b <<< 16) ||| (BitVec.ofNat 32 a <<< 8))) ∧
  (∀ a : Nat, a < 256 →
    (AsmLine.gfExp a).assemble.map encode = some (0x00000004 ||| (BitVec.ofNat 32 a <<< 8)) ∧
    (AsmLine.gfLog a).assemble.map encode = some (0x00000005 ||| (BitVec.ofNat 32 a <<< 8)) ∧
    (AsmLine.rsGen a).assemble.map encode = some (0x00000006 ||| (BitVec.ofNat 32 a <<< 8)) ∧
    (AsmLine.rsBlock a).assemble.map encode = some (0x00000007 ||| (BitVec.ofNat 32 a <<< 8))) ∧
  (∀ v : Nat, v < 256 →
    (AsmLine.rsEncode v .L).assemble.map encode = some (0x00000008 ||| (0 <<< 16) ||| (BitVec.ofNat 32 v <<< 8)) ∧
    (AsmLine.rsEncode v .M).assemble.map encode = some (0x00000008 ||| (1 <<< 16) ||| (BitVec.ofNat 32 v <<< 8)) ∧
    (AsmLine.rsEncode v .Q).assemble.map encode = some (0x00000008 ||| (2 <<< 16) ||| (BitVec.ofNat 32 v <<< 8)) ∧
    (AsmLine.rsEncode v .H).assemble.map encode = some (0x00000008 ||| (3 <<< 16) ||| (BitVec.ofNat 32 v <<< 8))) ∧
  (∀ a b : Nat, 256 ≤ a ∨ 256 ≤ b →
    (AsmLine.gfAdd a b).assemble = none ∧ (AsmLine.gfMul a b).assemble = none ∧
    (AsmLine.gfDiv a b).assemble = none) ∧
  (∀ a : Nat, 256 ≤ a →
    (AsmLine.gfExp a).assemble = none ∧ (AsmLine.gfLog a).assemble = none ∧ (AsmLine.rsGen a).assemble = none ∧
    (AsmLine.rsBlock a).assemble = none ∧ ∀ e : EcLevel, (AsmLine.rsEncode a e).assemble = none)

/-! ## The step (00_scope.md R11, 60_exceptions.md R153 to R163, 70_reset_and_hazards.md R192) -/

/-- A step runs the decoded command: at the ENGINE's turn with BUSY = 1, a step is exec of the command CMDLAST decodes to,
the turn being used up (R160, R163). Turns are the model's own, log entry 1. -/
def Obligations.StepRunsDecodedInstruction : Prop :=
  ∀ (s : State) (i : Instr), s.turn = .engine → s.busy = true → decode s.cmdLast = .command i →
    step s = exec i { s with schedule := s.schedule.tail }

/-- An illegal latched word completes with ILLEGAL_CMD (1) and writes nothing but the status (R90, R153, R162); the turn
used up is the model's own, log entry 1. -/
def Obligations.IllegalWordCompletes : Prop :=
  ∀ (s : State) (why : IllegalWord), s.turn = .engine → s.busy = true → decode s.cmdLast = .illegal why →
    step s = .next { s with schedule := s.schedule.tail, busy := false, done := true, err := true, errcode := 1 }

/-- R159: the engine's step ends the command when BUSY = 1, it has no step when BUSY = 0 (only the turn is used up), and
nothing but a host write to CMD makes BUSY 1. Turns are the model's own, log entry 1. -/
def Obligations.EngineStepExactlyWhileBusy : Prop :=
  (∀ s : State, s.turn = .engine → s.busy = true → ∃ t, step s = .next t ∧ t.busy = false ∧ t.done = true) ∧
  (∀ s : State, s.turn = .engine → s.busy = false → step s = .next { s with schedule := s.schedule.tail }) ∧
  (∀ s t : State, step s = .next t → s.busy = false → t.busy = true →
    s.turn = .host ∧ ∃ w, s.hostNext = some (.write cmdOffset .b32 w))

/-- No step ends in a fault or a refusal: errors are results, and model faults are recorded (R158, R166). That a run goes
on past a recorded fault is the model's choice, log entry 3. -/
def Obligations.StepNeverStops : Prop :=
  ∀ s : State, ∃ t, step s = .next t

/-- R192: a latched command has left the engine after at most one step more than there are fixed turns, whatever the host
does meanwhile (it completes, or a soft reset discards it). The bound is the model's, log entry 1. -/
def Obligations.AcceptedCommandLeavesEngine : Prop :=
  ∀ s : State, s.busy = true →
    ∃ k t, k ≤ s.schedule.length + 1 ∧ core.run k s = .next t ∧ t.busy = false

/-! ## GF(256) (40_gf_arith.md) -/

/-- GF_ADD writes RESULT = A xor B and ends the command; nothing else changes (R99, R103, R104). -/
def Obligations.GfAddCompletes : Prop :=
  ∀ (a b : Byte) (s : State),
    exec (.gfAdd a b) s = .next { s with busy := false, done := true, errcode := 0, result := a ^^^ b }

/-- GF_MUL writes the product by the tables, 0 when an operand is 0; nothing else changes (R100, R103, R105). -/
def Obligations.GfMulCompletes : Prop :=
  ∀ (a b : Byte) (s : State),
    exec (.gfMul a b) s = .next { s with
      busy := false, done := true, errcode := 0,
      result := if a = 0 ∨ b = 0 then 0 else expRom ((logRom a + logRom b) % 255) }

/-- GF_DIV by a non-zero divisor writes the quotient, the one byte whose product with B is A; nothing else changes
(R101, R102, R103, R106). -/
def Obligations.GfDivCompletes : Prop :=
  ∀ (a b : Byte) (s : State), b ≠ 0 →
    exec (.gfDiv a b) s = .next { s with busy := false, done := true, errcode := 0, result := gfdiv a b } ∧
    gfmul (gfdiv a b) b = a

/-- GF_EXP writes EXP[A mod 255]; nothing else changes (R103, R107). -/
def Obligations.GfExpCompletes : Prop :=
  ∀ (a : Byte) (s : State),
    exec (.gfExp a) s = .next { s with busy := false, done := true, errcode := 0, result := expRom (a.toNat % 255) }

/-- GF_LOG of a non-zero element writes LOG[A], the exponent 0..254 whose power of ALPHA is A; nothing else changes
(R37, R103, R108). -/
def Obligations.GfLogCompletes : Prop :=
  ∀ (a : Byte) (s : State), a ≠ 0 →
    exec (.gfLog a) s = .next { s with
      busy := false, done := true, errcode := 0, result := BitVec.ofNat 8 (logRom a) } ∧
    logRom a ≤ 254 ∧ expRom (logRom a) = a ∧ ∀ i ≤ 254, expRom i = a → i = logRom a

/-- The value errors decided on the command word alone: GF_DIV by 0 is DIV_ZERO (2), also for 0 / 0; GF_LOG of 0 is
LOG_ZERO (3); GEN_POLY of degree 0 or over 30 is INVALID_DEGREE (4). Nothing but the status changes
(R106, R108, R118, R162). -/
def Obligations.OperandValueErrors : Prop :=
  ∀ s : State,
    (∀ a : Byte, exec (.gfDiv a 0) s = .next { s with busy := false, done := true, err := true, errcode := 2 }) ∧
    exec (.gfLog 0) s = .next { s with busy := false, done := true, err := true, errcode := 3 } ∧
    (∀ n : Byte, n.toNat = 0 ∨ 30 < n.toNat →
      exec (.genPoly n) s = .next { s with busy := false, done := true, err := true, errcode := 4 })

/-- R98: EXP holds the powers of ALPHA = 0x02 generated by the recurrence. -/
def Obligations.ExpTableFollowsRecurrence : Prop :=
  expRom 0 = 0x01 ∧ expRom 1 = 0x02 ∧ ∀ i < 254, expRom (i + 1) = xtime (expRom i)

/-- The product by log/antilog tables is the product of polynomials modulo PRIM, for every pair of bytes
(R96, R97, R100). -/
def Obligations.TableProductIsPolynomialProduct : Prop :=
  ∀ a b : Byte, gfmul a b = polyProduct a b 8

/-- R102: the field laws. -/
def Obligations.FieldLaws : Prop :=
  (∀ a b c : Byte, gfadd (gfadd a b) c = gfadd a (gfadd b c)) ∧
  (∀ a b : Byte, gfadd a b = gfadd b a) ∧ (∀ a : Byte, gfadd a 0 = a ∧ gfadd a a = 0) ∧
  (∀ a b c : Byte, gfmul (gfmul a b) c = gfmul a (gfmul b c)) ∧
  (∀ a b : Byte, gfmul a b = gfmul b a) ∧ (∀ a : Byte, gfmul a 1 = a ∧ gfmul a 0 = 0) ∧
  (∀ a b c : Byte, gfmul a (gfadd b c) = gfadd (gfmul a b) (gfmul a c)) ∧
  (∀ a b : Byte, b ≠ 0 → gfmul (gfdiv a b) b = a) ∧ (∀ a : Byte, a ≠ 0 → gfdiv a a = 1) ∧
  (∀ a b : Byte, a ≠ 0 → b ≠ 0 → gfmul a b ≠ 0) ∧
  (∀ i j : Nat, i < 255 → j < 255 → expRom ((i + j) % 255) = gfmul (expRom i) (expRom j))

/-! ## The generator polynomial (41_generator.md) -/

/-- GEN_POLY of a degree 1 to 30 writes GEN and GDEG and ends the command; nothing else changes (R118). -/
def Obligations.GenPolyCompletes : Prop :=
  ∀ (n : Byte) (s : State), 1 ≤ n.toNat → n.toNat ≤ 30 →
    exec (.genPoly n) s = .next { s with
      busy := false, done := true, errcode := 0,
      gen := genRegisters n.toNat, gdeg := BitVec.ofNat 6 n.toNat }

/-- After a successful GEN_POLY, RS_BLOCK or RS_ENCODE, with n the degree in GDEG: GEN[i] is the coefficient of x^i of the
degree-n generator for i = 0..n, GEN[n] = 1, and GEN[i] = 0 above (R32, R38, R119). -/
def Obligations.GeneratorRegistersHoldPolynomial : Prop :=
  ∀ (i : Instr) (s t : State),
    (match i with
      | .genPoly _ => True
      | .rsBlock _ => True
      | .rsEncode _ _ => True
      | _ => False) →
    exec i s = .next t → t.errcode = 0 →
    1 ≤ t.gdeg.toNat ∧ t.gdeg.toNat ≤ 30 ∧
    (∀ j : Fin 32, t.gen.get j = if j.val ≤ t.gdeg.toNat then coeff (genPoly t.gdeg.toNat) j.val else 0) ∧
    coeff (genPoly t.gdeg.toNat) t.gdeg.toNat = 1

/-- R116: g_n(x) is the product of the factors (x + ALPHA^i), i < n; it is monic of degree n, and its roots are exactly
ALPHA^0, ..., ALPHA^(n-1). -/
def Obligations.GeneratorIsProductOfLinearFactors : Prop :=
  ∀ n : Nat, 1 ≤ n → n ≤ 30 →
    (genPoly n).length = n + 1 ∧ coeff (genPoly n) n = 1 ∧
    (∀ x : Byte, evalStream (genPoly n).reverse x
      = (List.range n).foldl (fun p i => gfmul p (gfadd x (expRom i))) 1) ∧
    (∀ x : Byte, evalStream (genPoly n).reverse x = 0 ↔ ∃ i < n, x = expRom i)

/-- R120: the consequences listed for checking a model. -/
def Obligations.GeneratorConsequences : Prop :=
  (∀ n : Nat, 1 ≤ n → n ≤ 30 →
    (∀ i < n, evalStream (genPoly n).reverse (expRom i) = 0) ∧
    coeff (genPoly n) n = 1 ∧
    (∀ j ≤ n, coeff (genPoly n) j ≠ 0) ∧
    coeff (genPoly n) 0 = expRom (n * (n - 1) / 2 % 255)) ∧
  (∀ n : Nat, 1 ≤ n → n < 30 → ∀ j : Nat, coeff (genPoly (n + 1)) j = productCoeff (genPoly n) [expRom n, 1] j)

/-! ## Block encoding (42_rs_encode.md) -/

/-- R126: the n EC codewords are the remainder r(x) = (d(x) · x^n) mod g_n(x): coefficient by coefficient, d(x) · x^n is
q(x) g_n(x) + r(x) for some quotient q, and r has degree below n. The data are the coefficients from the highest degree
down (R125, in shiftedData), and so are the EC codewords: E[i] is the coefficient of x^(n-1-i) (R127, the reverse). -/
def Obligations.EcCodewordsAreRemainder : Prop :=
  ∀ (ds : List Byte) (n : Nat), 1 ≤ n → n ≤ 30 →
    (rsRem ds n).length = n ∧
    ∃ q : List Byte, ∀ j : Nat,
      coeff (shiftedData ds n) j = gfadd (productCoeff q (genPoly n) j) (coeff (rsRem ds n).reverse j)

/-- R129: the codeword polynomial of the data followed by the EC codewords is 0 at ALPHA^0, ..., ALPHA^(n-1), and is a
multiple of g_n. -/
def Obligations.CodewordIsMultipleOfGenerator : Prop :=
  ∀ (ds : List Byte) (n : Nat), 1 ≤ n → n ≤ 30 →
    (∀ i < n, evalStream (ds ++ rsRem ds n) (expRom i) = 0) ∧
    ∃ q : List Byte, ∀ j : Nat, coeff (ds ++ rsRem ds n).reverse j = productCoeff q (genPoly n) j

/-- RS_BLOCK with a legal degree, both ranges inside CWMEM and no shared byte completes: the destination holds the EC
codewords of the LEN bytes from SRC, GEN and GDEG the generator; every CWMEM byte outside the destination and every other
register is unchanged; UninitRead is recorded for exactly the undefined data bytes (R40, R128, R130, R132, R142). The
next state after an undefined byte, and the free value read there, are the model's choice, log entries 3 and 4. -/
def Obligations.RsBlockCompletes : Prop :=
  ∀ (n : Byte) (s : State), 1 ≤ n.toNat → n.toNat ≤ 30 →
    s.src.toNat + s.len.toNat ≤ 4096 → s.dst.toNat + n.toNat ≤ 4096 →
    (s.len.toNat = 0 ∨ s.src.toNat + s.len.toNat ≤ s.dst.toNat ∨ s.dst.toNat + n.toNat ≤ s.src.toNat) →
    ∃ (m : Mem) (f : List Fault),
      exec (.rsBlock n) s = .next { s with
        busy := false, done := true, errcode := 0, mem := m, faults := f,
        gen := genRegisters n.toNat, gdeg := BitVec.ofNat 6 n.toNat } ∧
      (rsRem (s.cwRange s.src.toNat s.len.toNat) n.toNat).length = n.toNat ∧
      (∀ i < n.toNat,
        Mem.lookup m (s.dst.toNat + i) = (rsRem (s.cwRange s.src.toNat s.len.toNat) n.toNat)[i]?) ∧
      (∀ a : Nat, a < s.dst.toNat ∨ s.dst.toNat + n.toNat ≤ a → Mem.lookup m a = Mem.lookup s.mem a) ∧
      (∀ x : Fault, x ∈ f ↔ x ∈ s.faults ∨ ∃ a, s.src.toNat ≤ a ∧ a < s.src.toNat + s.len.toNat ∧
        Mem.lookup s.mem a = none ∧ x = .uninitRead a)

/-- RS_BLOCK fails its checks in the order INVALID_DEGREE (4), ADDR_RANGE (8), REGION_OVERLAP (9), and then writes nothing
but the status (R131, R132, R133, R153, R162). -/
def Obligations.RsBlockErrors : Prop :=
  ∀ (n : Byte) (s : State),
    (n.toNat = 0 ∨ 30 < n.toNat →
      exec (.rsBlock n) s = .next { s with busy := false, done := true, err := true, errcode := 4 }) ∧
    (1 ≤ n.toNat → n.toNat ≤ 30 → 4096 < s.src.toNat + s.len.toNat ∨ 4096 < s.dst.toNat + n.toNat →
      exec (.rsBlock n) s = .next { s with busy := false, done := true, err := true, errcode := 8 }) ∧
    (1 ≤ n.toNat → n.toNat ≤ 30 → s.src.toNat + s.len.toNat ≤ 4096 → s.dst.toNat + n.toNat ≤ 4096 →
      0 < s.len.toNat → s.src.toNat < s.dst.toNat + n.toNat → s.dst.toNat < s.src.toNat + s.len.toNat →
      exec (.rsBlock n) s = .next { s with busy := false, done := true, err := true, errcode := 9 })

/-- RS_ENCODE of a version 1 to 40, whose row is entry v - 1 of CAPTABLE at its EC level (R41, R135), with that row valid, LEN = KTOT, both ranges inside CWMEM and no shared byte completes:
EC codeword i of block j is at DST + j×NEC + i, computed from the K_j data codewords at SRC + off_j; GEN, GDEG, GEOM0,
GEOM1 and ETOT are written from the row; every CWMEM byte outside the destination and every other register is unchanged;
UninitRead is recorded for exactly the undefined data bytes (R139 to R143). CAPTABLE as a field of State is log entry 5. Going on after an undefined byte is the
model's choice, log entries 3 and 4. -/
def Obligations.RsEncodeCompletes : Prop :=
  ∀ (v : Byte) (e : EcLevel) (s : State) (rows : CapRows) (r : CapRow),
    1 ≤ v.toNat → s.capTable[v.toNat - 1]? = some rows →
    r = (match e with
      | .L => rows.l
      | .M => rows.m
      | .Q => rows.q
      | .H => rows.h) →
    r.valid = true → s.len.toNat = r.ktot → s.src.toNat + r.ktot ≤ 4096 → s.dst.toNat + r.etot ≤ 4096 →
    (s.src.toNat + r.ktot ≤ s.dst.toNat ∨ s.dst.toNat + r.etot ≤ s.src.toNat) →
    ∃ (m : Mem) (f : List Fault),
      exec (.rsEncode v e) s = .next { s with
        busy := false, done := true, errcode := 0, mem := m, faults := f,
        gen := genRegisters r.nec.toNat, gdeg := BitVec.ofNat 6 r.nec.toNat,
        geom0 := r.g2k ++ r.g2c ++ r.g1k ++ r.g1c,
        geom1 := BitVec.ofNat 13 r.ktot ++ BitVec.ofNat 8 r.nblk ++ r.nec,
        etot := BitVec.ofNat 13 r.etot } ∧
      (∀ j < r.nblk,
        (rsRem (s.cwRange (s.src.toNat + blockOffset r j) (blockLength r j)) r.nec.toNat).length = r.nec.toNat ∧
        ∀ i < r.nec.toNat,
          Mem.lookup m (s.dst.toNat + j * r.nec.toNat + i)
            = (rsRem (s.cwRange (s.src.toNat + blockOffset r j) (blockLength r j)) r.nec.toNat)[i]?) ∧
      (∀ a : Nat, a < s.dst.toNat ∨ s.dst.toNat + r.etot ≤ a → Mem.lookup m a = Mem.lookup s.mem a) ∧
      (∀ x : Fault, x ∈ f ↔ x ∈ s.faults ∨ ∃ a, s.src.toNat ≤ a ∧ a < s.src.toNat + r.ktot ∧
        Mem.lookup s.mem a = none ∧ x = .uninitRead a)

/-- The row of RS_ENCODE and its checks. What makes a row valid, and its KTOT and ETOT, are as R41 and R137 say; the row of
a version 1 to 40 is entry v - 1 of CAPTABLE at the EC level, and no other version has one (R41, R135; CAPTABLE as a field
of State is log entry 5). RS_ENCODE fails its checks in the order INVALID_VERSION (5), TABLE_FAULT (6), LENGTH_MISMATCH (7), ADDR_RANGE (8),
REGION_OVERLAP (9), and then writes nothing but the status (R135 to R139, R153, R162). -/
def Obligations.RsEncodeErrors : Prop :=
  (∀ r : CapRow,
    (r.valid = true ↔
      1 ≤ r.g1c.toNat ∧ 1 ≤ r.g1k.toNat ∧ 1 ≤ r.nec.toNat ∧ r.nec.toNat ≤ 30 ∧
      (r.g2c.toNat = 0 ∨ r.g1k.toNat < r.g2k.toNat) ∧ r.g1c.toNat + r.g2c.toNat ≤ 255 ∧
      r.g1c.toNat * r.g1k.toNat + r.g2c.toNat * r.g2k.toNat ≤ 4096 ∧
      (r.g1c.toNat + r.g2c.toNat) * r.nec.toNat ≤ 4096) ∧
    r.ktot = r.g1c.toNat * r.g1k.toNat + r.g2c.toNat * r.g2k.toNat ∧
    r.etot = (r.g1c.toNat + r.g2c.toNat) * r.nec.toNat) ∧
  ∀ (v : Byte) (e : EcLevel) (s : State),
    (v.toNat = 0 ∨ 40 < v.toNat → s.capRow v e = none ∧
      exec (.rsEncode v e) s = .next { s with busy := false, done := true, err := true, errcode := 5 }) ∧
    (1 ≤ v.toNat → v.toNat ≤ 40 → ∃ rows r, s.capTable[v.toNat - 1]? = some rows ∧
      r = (match e with
        | .L => rows.l
        | .M => rows.m
        | .Q => rows.q
        | .H => rows.h) ∧
      s.capRow v e = some r ∧
      (r.valid = false →
        exec (.rsEncode v e) s = .next { s with busy := false, done := true, err := true, errcode := 6 }) ∧
      (r.valid = true → s.len.toNat ≠ r.ktot →
        exec (.rsEncode v e) s = .next { s with busy := false, done := true, err := true, errcode := 7 }) ∧
      (r.valid = true → s.len.toNat = r.ktot → 4096 < s.src.toNat + r.ktot ∨ 4096 < s.dst.toNat + r.etot →
        exec (.rsEncode v e) s = .next { s with busy := false, done := true, err := true, errcode := 8 }) ∧
      (r.valid = true → s.len.toNat = r.ktot → s.src.toNat + r.ktot ≤ 4096 → s.dst.toNat + r.etot ≤ 4096 →
        s.src.toNat < s.dst.toNat + r.etot → s.dst.toNat < s.src.toNat + r.ktot →
        exec (.rsEncode v e) s = .next { s with busy := false, done := true, err := true, errcode := 9 }))

/-- R144: after a successful RS_ENCODE the block lengths sum to KTOT = LEN, ETOT = NBLK × NEC, group-1 blocks are the
shorter ones when both groups exist, and the data range is unchanged. -/
def Obligations.RsEncodeInvariants : Prop :=
  ∀ (v : Byte) (e : EcLevel) (s t : State), exec (.rsEncode v e) s = .next t → t.errcode = 0 →
    ∃ r, s.capRow v e = some r ∧
      ((List.range r.nblk).map (blockLength r)).sum = r.ktot ∧ r.ktot = s.len.toNat ∧
      t.etot.toNat = r.nblk * r.nec.toNat ∧
      (r.g1c ≠ 0 → r.g2c ≠ 0 → r.g1k.toNat < r.g2k.toNat) ∧
      (∀ a : Nat, s.src.toNat ≤ a → a < s.src.toNat + r.ktot → Mem.lookup t.mem a = Mem.lookup s.mem a)

/-- After a successful RS_ENCODE, 32-bit reads at 0x02C, 0x030 and 0x034 give the row's fields where the register map
puts them in GEOM0, GEOM1 and ETOT
(R33, R34, R35, R139). -/
def Obligations.GeometryRegistersRead : Prop :=
  ∀ (v : Byte) (e : EcLevel) (s t : State), exec (.rsEncode v e) s = .next t → t.errcode = 0 →
    ∃ r, s.capRow v e = some r ∧
      (t.busRead 0x02C .b32).data.toNat
        = r.g1c.toNat + r.g1k.toNat * 2 ^ 8 + r.g2c.toNat * 2 ^ 16 + r.g2k.toNat * 2 ^ 24 ∧
      (t.busRead 0x030 .b32).data.toNat = r.nec.toNat + r.nblk * 2 ^ 8 + r.ktot * 2 ^ 16 ∧
      (t.busRead 0x034 .b32).data.toNat = r.nblk * r.nec.toNat

/-- RS_ENCODE for a one-block symbol writes what RS_BLOCK with n = NEC writes on the same data (R147). -/
def Obligations.OneBlockSymbolMatchesRsBlock : Prop :=
  ∀ (v : Byte) (e : EcLevel) (s t : State) (r : CapRow), s.capRow v e = some r → r.g1c = 1 → r.g2c = 0 →
    exec (.rsEncode v e) s = .next t → t.errcode = 0 →
    ∃ u, exec (.rsBlock r.nec) s = .next u ∧ u.errcode = 0 ∧
      u.mem = t.mem ∧ u.gen = t.gen ∧ u.gdeg = t.gdeg ∧ u.faults = t.faults

/-- R145: RS_BLOCK and RS_ENCODE change no CWMEM byte outside their destination range, and none of the data range,
whether they succeed or fail. -/
def Obligations.MemoryOutsideDestinationUnchanged : Prop :=
  (∀ (n : Byte) (s t : State), exec (.rsBlock n) s = .next t → ∀ a : Nat,
    (a < s.dst.toNat ∨ s.dst.toNat + n.toNat ≤ a ∨ (s.src.toNat ≤ a ∧ a < s.src.toNat + s.len.toNat)) →
    Mem.lookup t.mem a = Mem.lookup s.mem a) ∧
  (∀ (v : Byte) (e : EcLevel) (s t : State), exec (.rsEncode v e) s = .next t →
    (s.capRow v e = none → t.mem = s.mem) ∧
    (∀ r, s.capRow v e = some r → ∀ a : Nat,
      (a < s.dst.toNat ∨ s.dst.toNat + r.etot ≤ a ∨ (s.src.toNat ≤ a ∧ a < s.src.toNat + r.ktot)) →
      Mem.lookup t.mem a = Mem.lookup s.mem a))

/-! ## Completion and errors, over all commands (60_exceptions.md) -/

/-- What each command may write, success or failure: beside BUSY, DONE, ERR and ERRCODE, the GF commands only RESULT,
GEN_POLY only GEN and GDEG, RS_BLOCK those and CWMEM, RS_ENCODE those and GEOM0, GEOM1, ETOT (R103, R142, R161); the two
that read CWMEM also record model faults (R158). -/
def Obligations.CommandWriteSets : Prop :=
  ∀ (i : Instr) (s t : State), exec i s = .next t →
    t.busy = false ∧ t.done = true ∧
    match i with
    | .gfAdd _ _ | .gfMul _ _ | .gfDiv _ _ | .gfExp _ | .gfLog _ =>
      t = { s with busy := false, done := true, err := t.err, errcode := t.errcode, result := t.result }
    | .genPoly _ =>
      t = { s with
        busy := false, done := true, err := t.err, errcode := t.errcode, gen := t.gen, gdeg := t.gdeg }
    | .rsBlock _ =>
      t = { s with
        busy := false, done := true, err := t.err, errcode := t.errcode, gen := t.gen, gdeg := t.gdeg,
        mem := t.mem, faults := t.faults }
    | .rsEncode _ _ =>
      t = { s with
        busy := false, done := true, err := t.err, errcode := t.errcode, gen := t.gen, gdeg := t.gdeg,
        mem := t.mem, faults := t.faults, geom0 := t.geom0, geom1 := t.geom1, etot := t.etot }

/-- R162: a command that ends with an error code has written nothing but the status: no CWMEM byte and no register. The
second clause is the latched word that is no command at all. -/
def Obligations.FailureCommitsNothing : Prop :=
  (∀ (i : Instr) (s t : State), exec i s = .next t → t.errcode ≠ 0 →
    t = { s with busy := false, done := true, err := true, errcode := t.errcode }) ∧
  (∀ (s t : State) (why : IllegalWord), s.busy = true → decode s.cmdLast = .illegal why → engineStep s = .next t →
    t.errcode ≠ 0 ∧ t = { s with busy := false, done := true, err := true, errcode := t.errcode })

/-- The codes each decoded command can end with, and no others (R150, R152, R154): 0 for success, then its own errors. -/
def Obligations.ErrorsOfEachCommand : Prop :=
  ∀ (i : Instr) (s t : State), exec i s = .next t →
    match i with
    | .gfAdd _ _ | .gfMul _ _ | .gfExp _ => t.errcode = 0
    | .gfDiv _ _ => t.errcode = 0 ∨ t.errcode = 2
    | .gfLog _ => t.errcode = 0 ∨ t.errcode = 3
    | .genPoly _ => t.errcode = 0 ∨ t.errcode = 4
    | .rsBlock _ => t.errcode = 0 ∨ t.errcode = 4 ∨ t.errcode = 8 ∨ t.errcode = 9
    | .rsEncode _ _ =>
      t.errcode = 0 ∨ t.errcode = 5 ∨ t.errcode = 6 ∨ t.errcode = 7 ∨ t.errcode = 8 ∨ t.errcode = 9

/-- R12: the result of a command is a function of the command, the operand registers, CWMEM and CAPTABLE alone. Two states
that agree on those (what an undefined byte holds is part of CWMEM: lostRanges) end with the same code and the same CWMEM,
and on success with the same result in every register the command writes. -/
def Obligations.ResultDependsOnOperandsOnly : Prop :=
  ∀ (i : Instr) (s s' t t' : State),
    s.src = s'.src → s.len = s'.len → s.dst = s'.dst → s.mem = s'.mem → s.lostRanges = s'.lostRanges →
    s.capTable = s'.capTable → exec i s = .next t → exec i s' = .next t' →
    t.errcode = t'.errcode ∧ t.mem = t'.mem ∧
    (t.errcode = 0 →
      match i with
      | .gfAdd _ _ | .gfMul _ _ | .gfDiv _ _ | .gfExp _ | .gfLog _ => t.result = t'.result
      | .genPoly _ | .rsBlock _ => t.gen = t'.gen ∧ t.gdeg = t'.gdeg
      | .rsEncode _ _ =>
        t.gen = t'.gen ∧ t.gdeg = t'.gdeg ∧ t.geom0 = t'.geom0 ∧ t.geom1 = t'.geom1 ∧ t.etot = t'.etot)

/-- R156: acceptance. A 32-bit write of any word to CMD with BUSY = 0 latches it in one step with the response OKAY, and
IRQ falls. -/
def Obligations.CommandAcceptance : Prop :=
  ∀ (s : State) (w : Word), s.busy = false →
    s.busWrite cmdOffset .b32 w
      = ⟨.okay, 0, { s with cmdLast := w, busy := true, done := false, err := false, errcode := 0 }⟩ ∧
    (s.busWrite cmdOffset .b32 w).state.irq = false

/-- IRQ is IE and DONE (R46); the completion of a command, failed or successful, and of an illegal latched word, raises it
exactly when IE = 1 (R164); R165: the four events that make it fall, and that clearing ERR alone does not. -/
def Obligations.IrqFalls : Prop :=
  (∀ s : State, s.irq = (s.ie && s.done)) ∧
  (∀ (i : Instr) (s t : State), exec i s = .next t → t.irq = s.ie) ∧
  (∀ (s t : State) (why : IllegalWord), s.busy = true → decode s.cmdLast = .illegal why → engineStep s = .next t →
    t.irq = s.ie) ∧
  ∀ s : State,
    (∀ v : Word, v.getLsbD 1 = true → (s.busWrite statusOffset .b32 v).state.irq = false) ∧
    (∀ v : Word, v.getLsbD 0 = false → (s.busWrite ctrlOffset .b32 v).state.irq = false) ∧
    (∀ w : Word, s.busy = false → (s.busWrite cmdOffset .b32 w).state.irq = false) ∧
    (∀ v : Word, v.getLsbD 1 = true → (s.busWrite ctrlOffset .b32 v).state.irq = false) ∧
    State.reset.irq = false ∧
    (s.busWrite statusOffset .b32 0x4).state.irq = s.irq

/-! ## Host accesses (10_state.md, 20_memory.md) -/

/-- R59, R62: in the register region only a 32-bit access at a multiple of 4 is legal; any other gets ERROR, data 0 and
WERR, and has no other effect. That the wider widths of access are one constructor is log entry 10. A legal read is
answered OKAY, at a reserved offset too, where R65 has a model refuse it and the model's going on is log entry 7. -/
def Obligations.RegisterAccessForms : Prop :=
  ∀ (s : State) (off : Offset) (w : AccessWidth) (v : Word), off.toNat < 0x1000 →
    (w ≠ .b32 ∨ off.toNat % 4 ≠ 0 →
      s.busRead off w = ⟨.error, 0, { s with werr := true }⟩ ∧
      s.busWrite off w v = ⟨.error, 0, { s with werr := true }⟩) ∧
    (w = .b32 → off.toNat % 4 = 0 → (s.busRead off w).resp = .okay)

/-- R60: in the CWMEM window, while no command runs (R67), an 8-bit access reads or writes its byte, a 32-bit access at a
multiple of 4 its four bytes; any other gets ERROR, data 0 and WERR, and has no other effect. The access widths are log
entry 10. Where a byte read is undefined, the OKAY with which the run goes on is log entry 3 and its value, s.cw a, is the
free byte of log entry 4. -/
def Obligations.WindowAccessForms : Prop :=
  ∀ (s : State) (off : Offset) (w : AccessWidth) (v : Word) (a : Nat), off.toNat = 0x1000 + a → s.busy = false →
    (w = .b8 →
      (s.busRead off w).resp = .okay ∧ (s.busRead off w).data = (s.cw a).setWidth 32 ∧
      s.busWrite off w v = ⟨.okay, 0, { s with mem := Mem.insert s.mem a (v.extractLsb' 0 8) }⟩) ∧
    (w = .b32 → a % 4 = 0 →
      (s.busRead off w).resp = .okay ∧
      (s.busRead off w).data = s.cw (a + 3) ++ s.cw (a + 2) ++ s.cw (a + 1) ++ s.cw a ∧
      (s.busWrite off w v).resp = .okay ∧
      (s.busWrite off w v).state = { s with mem := Mem.insertAll s.mem a (wordBytes v) }) ∧
    (w = .b16 ∨ w = .wider ∨ (w = .b32 ∧ a % 4 ≠ 0) →
      s.busRead off w = ⟨.error, 0, { s with werr := true }⟩ ∧
      s.busWrite off w v = ⟨.error, 0, { s with werr := true }⟩)

/-- R61: little-endian. After an aligned 32-bit write of v, byte k of the four reads as bits 8k+7..8k of v by an 8-bit
access, all four as v by a 32-bit access, and every other byte as before. -/
def Obligations.LittleEndianWindow : Prop :=
  ∀ (s : State) (off : Offset) (v : Word) (a : Nat), off.toNat = 0x1000 + a → a % 4 = 0 → s.busy = false →
    (∀ k < 4, ((s.busWrite off .b32 v).state.busRead (off + BitVec.ofNat 13 k) .b8).data
      = (v.extractLsb' (8 * k) 8).setWidth 32) ∧
    ((s.busWrite off .b32 v).state.busRead off .b32).data = v ∧
    (∀ b : Nat, b < a ∨ a + 4 ≤ b →
      Mem.lookup (s.busWrite off .b32 v).state.mem b = Mem.lookup s.mem b)

/-- R67: while BUSY = 1 every window access and every write to SRC, LEN, DST or CMD gets ERROR and has no other effect;
reads of every register, and writes to CTRL and STATUS, are accepted. -/
def Obligations.BusyRefusals : Prop :=
  ∀ (s : State) (off : Offset) (w : AccessWidth) (v : Word), s.busy = true →
    (0x1000 ≤ off.toNat →
      s.busRead off w = ⟨.error, 0, { s with werr := true }⟩ ∧
      s.busWrite off w v = ⟨.error, 0, { s with werr := true }⟩) ∧
    (off = srcOffset ∨ off = lenOffset ∨ off = dstOffset ∨ off = cmdOffset →
      s.busWrite off w v = ⟨.error, 0, { s with werr := true }⟩) ∧
    (∀ r : DevReg, accessTarget off .b32 = some (.reg r) → s.busRead off .b32 = ⟨.okay, s.readReg r, s⟩) ∧
    s.busWrite ctrlOffset .b32 v = ⟨.okay, 0, s.writeCtrl v⟩ ∧
    s.busWrite statusOffset .b32 v = ⟨.okay, 0, s.writeStatus v⟩

/-- STATUS: a read gives BUSY, DONE, ERR, WERR in bits 0 to 3 and 0 above; a write clears DONE, ERR, WERR where it has a
1, leaves BUSY, and changes nothing else (R25). -/
def Obligations.StatusBits : Prop :=
  ∀ (s : State) (v : Word),
    (s.busRead statusOffset .b32).data.toNat
      = s.busy.toNat + 2 * s.done.toNat + 4 * s.err.toNat + 8 * s.werr.toNat ∧
    s.busWrite statusOffset .b32 v = ⟨.okay, 0, { s with
      done := if v.getLsbD 1 then false else s.done
      err := if v.getLsbD 2 then false else s.err
      werr := if v.getLsbD 3 then false else s.werr }⟩

/-- While no command runs, a write to SRC, LEN or DST is answered OKAY and only stores its low 12, 13 or 12 bits: nothing
else changes (R69), and the register then reads those bits with 0 above (R29, R30, R31). -/
def Obligations.OperandRegisterWidths : Prop :=
  ∀ (s : State) (v : Word), s.busy = false →
    s.busWrite 0x01C .b32 v = ⟨.okay, 0, { s with src := v.extractLsb' 0 12 }⟩ ∧
    s.busWrite 0x020 .b32 v = ⟨.okay, 0, { s with len := v.extractLsb' 0 13 }⟩ ∧
    s.busWrite 0x024 .b32 v = ⟨.okay, 0, { s with dst := v.extractLsb' 0 12 }⟩ ∧
    ((s.busWrite 0x01C .b32 v).state.busRead 0x01C .b32).data = v &&& 0xFFF ∧
    ((s.busWrite 0x020 .b32 v).state.busRead 0x020 .b32).data = v &&& 0x1FFF ∧
    ((s.busWrite 0x024 .b32 v).state.busRead 0x024 .b32).data = v &&& 0xFFF

/-- The register map, offset by offset (R21, R58), whatever BUSY is: what a 32-bit read returns of each register (R22 to
R35, R38), answered OKAY and changing nothing; that a write to a read-only one is ignored with the response OKAY (R47); and
that the names the other statements use stand for the offsets of R21. -/
def Obligations.ReadOnlyRegisters : Prop :=
  (∀ s : State,
    s.busRead 0x000 .b32 = ⟨.okay, 0x52530001, s⟩ ∧
    s.busRead 0x004 .b32 = ⟨.okay, 0x00000C1E, s⟩ ∧
    s.busRead 0x008 .b32 = ⟨.okay, if s.ie then 1 else 0, s⟩ ∧
    s.busRead 0x00C .b32 = ⟨.okay, BitVec.ofNat 32
      (s.busy.toNat + 2 * s.done.toNat + 4 * s.err.toNat + 8 * s.werr.toNat), s⟩ ∧
    s.busRead 0x010 .b32 = ⟨.okay, s.cmdLast, s⟩ ∧
    s.busRead 0x014 .b32 = ⟨.okay, s.result.setWidth 32, s⟩ ∧
    s.busRead 0x018 .b32 = ⟨.okay, s.errcode.setWidth 32, s⟩ ∧
    s.busRead 0x01C .b32 = ⟨.okay, s.src.setWidth 32, s⟩ ∧
    s.busRead 0x020 .b32 = ⟨.okay, s.len.setWidth 32, s⟩ ∧
    s.busRead 0x024 .b32 = ⟨.okay, s.dst.setWidth 32, s⟩ ∧
    s.busRead 0x028 .b32 = ⟨.okay, s.gdeg.setWidth 32, s⟩ ∧
    s.busRead 0x02C .b32 = ⟨.okay, s.geom0, s⟩ ∧
    s.busRead 0x030 .b32 = ⟨.okay, s.geom1.setWidth 32, s⟩ ∧
    s.busRead 0x034 .b32 = ⟨.okay, s.etot.setWidth 32, s⟩ ∧
    ∀ i : Fin 32, s.busRead (BitVec.ofNat 13 (0x080 + 4 * i.val)) .b32 = ⟨.okay, (s.gen.get i).setWidth 32, s⟩) ∧
  (∀ (s : State) (v : Word),
    (∀ off ∈ [0x000, 0x004, 0x014, 0x018, 0x028, 0x02C, 0x030, 0x034], s.busWrite off .b32 v = ⟨.okay, 0, s⟩) ∧
    ∀ i : Fin 32, s.busWrite (BitVec.ofNat 13 (0x080 + 4 * i.val)) .b32 v = ⟨.okay, 0, s⟩) ∧
  ctrlOffset = 0x008 ∧ statusOffset = 0x00C ∧ cmdOffset = 0x010 ∧ srcOffset = 0x01C ∧ lenOffset = 0x020 ∧
  dstOffset = 0x024

/-- A read never changes the state but for WERR with an ERROR response and the recorded model faults, and a read of a
register changes nothing (R69). -/
def Obligations.ReadsChangeNothing : Prop :=
  ∀ (s : State) (off : Offset) (w : AccessWidth),
    ((s.busRead off w).resp = .error → (s.busRead off w).state = { s with werr := true }) ∧
    ((s.busRead off w).resp = .okay →
      (s.busRead off w).state = { s with faults := (s.busRead off w).state.faults }) ∧
    (∀ r : DevReg, accessTarget off w = some (.reg r) → (s.busRead off w).state = s)

/-- The model faults (R40, R65, R158): a window read of an undefined byte while BUSY = 0 records UninitRead for each
undefined byte it reads; a legal-width access to a reserved offset reads 0 or is ignored, gets OKAY, and records the
reserved-offset fault. That both go on is the model's choice, log entries 3 and 7. -/
def Obligations.ModelFaultsRecorded : Prop :=
  (∀ (s : State) (off : Offset) (a : Nat), off.toNat = 0x1000 + a → s.busy = false →
    (∀ x : Fault, x ∈ (s.busRead off .b8).state.faults ↔
      x ∈ s.faults ∨ (Mem.lookup s.mem a = none ∧ x = .uninitRead a)) ∧
    (a % 4 = 0 → ∀ x : Fault, x ∈ (s.busRead off .b32).state.faults ↔
      x ∈ s.faults ∨ ∃ b, a ≤ b ∧ b < a + 4 ∧ Mem.lookup s.mem b = none ∧ x = .uninitRead b)) ∧
  (∀ (s : State) (off : Offset) (v : Word), off.toNat % 4 = 0 →
    (0x038 ≤ off.toNat ∧ off.toNat < 0x080) ∨ (0x100 ≤ off.toNat ∧ off.toNat < 0x1000) →
    s.busRead off .b32 = ⟨.okay, 0, { s with faults := addFault s.faults (.reservedOffset off) }⟩ ∧
    s.busWrite off .b32 v = ⟨.okay, 0, { s with faults := addFault s.faults (.reservedOffset off) }⟩)

/-- The host's operations at its turn: a write makes the step whose device state and response are those of the bus write,
and a read the one whose device state, response and data are those of the bus read, the data in its temporary and every
other temporary as before (R68, R70, R94); a branch is taken by its masked temporary, and halt ends the program and tells a
halt under BUSY = 1 apart (R94, R193). The host's position, its temporaries and what a host past its program does are the
model's, log entry 8; turns are log entry 1. -/
def Obligations.HostOperations : Prop :=
  ∀ s : State, s.turn = .host →
    (∀ off w v, s.hostNext = some (.write off w v) → step s = .next { (s.busWrite off w v).state with
      schedule := s.schedule.tail
      hostResp := some (s.busWrite off w v).resp
      hostPc := s.hostPc + 1 }) ∧
    (∀ off w t, s.hostNext = some (.read off w t) → ∃ temps : List Word,
      step s = .next { (s.busRead off w).state with
        schedule := s.schedule.tail
        hostResp := some (s.busRead off w).resp
        hostPc := s.hostPc + 1
        hostTemps := temps } ∧
      tempValue temps t = (s.busRead off w).data ∧
      ∀ k, k ≠ t → tempValue temps k = tempValue s.hostTemps k) ∧
    (∀ t m target, s.hostNext = some (.bz t m target) → step s = .next { s with
      schedule := s.schedule.tail
      hostPc := if tempValue s.hostTemps t &&& m = 0 then target else s.hostPc + 1 }) ∧
    (∀ t m target, s.hostNext = some (.bnz t m target) → step s = .next { s with
      schedule := s.schedule.tail
      hostPc := if tempValue s.hostTemps t &&& m = 0 then s.hostPc + 1 else target }) ∧
    (s.hostNext = some .halt → step s = .next { s with
      schedule := s.schedule.tail
      hostStatus := if s.busy then .haltedBusy else .halted }) ∧
    (s.hostNext = none → step s = .next { s with schedule := s.schedule.tail })

/-! ## Reset (10_state.md R48, 70_reset_and_hazards.md) -/

/-- R175: power-on reset leaves every register at the value R48 gives, the device idle, no CWMEM byte defined (R176), no
interrupt (R178), and the constants readable. -/
def Obligations.PowerOnReset : Prop :=
  State.reset.readReg .ctrl = 0 ∧ State.reset.readReg .status = 0 ∧ State.reset.readReg .cmd = 0 ∧
  State.reset.readReg .result = 0 ∧ State.reset.readReg .errcode = 0 ∧ State.reset.readReg .src = 0 ∧
  State.reset.readReg .len = 0 ∧ State.reset.readReg .dst = 0 ∧ State.reset.readReg .gdeg = 0 ∧
  State.reset.readReg .geom0 = 0 ∧ State.reset.readReg .geom1 = 0 ∧ State.reset.readReg .etot = 0 ∧
  (∀ i : Fin 32, State.reset.readReg (.gen i) = 0) ∧
  State.reset.readReg .id = 0x52530001 ∧ State.reset.readReg .cap = 0x00000C1E ∧
  State.reset.busy = false ∧ State.reset.irq = false ∧
  (∀ a : Nat, Mem.lookup State.reset.mem a = none)

/-- R183, R184: a 32-bit write to CTRL with bit [1] = 1 returns every register to its reset value whatever BUSY is, the IE
of the same word discarded, with the response OKAY; CWMEM becomes what the abort of the latched command leaves (R185, next
statement), and with BUSY = 0 no byte changes (R195). A write with bit [1] = 0 only writes IE. That the recorded faults, the
host and the schedule stay is log entry 13; lostRanges, which with BUSY = 0 does not change, is log entry 4. -/
def Obligations.SoftResetReturnsRegisters : Prop :=
  ∀ (s : State) (v : Word),
    (v.getLsbD 1 = true →
      s.busWrite ctrlOffset .b32 v = ⟨.okay, 0, { s with
        ie := false, busy := false, done := false, err := false, werr := false, cmdLast := 0, result := 0,
        errcode := 0, src := 0, len := 0, dst := 0, gdeg := 0, geom0 := 0, geom1 := 0, etot := 0,
        gen := Vector.replicate 32 0, mem := s.abortLatched.mem, lostRanges := s.abortLatched.lostRanges }⟩ ∧
      (s.busy = false → s.abortLatched.mem = s.mem ∧ s.abortLatched.lostRanges = s.lostRanges)) ∧
    (v.getLsbD 1 = false → s.busWrite ctrlOffset .b32 v = ⟨.okay, 0, { s with ie := v.getLsbD 0 }⟩)

/-- R185: what the soft-reset write to CTRL does to CWMEM while a command is latched. An RS_BLOCK or RS_ENCODE that would
pass its checks loses exactly its destination range; any other latched word, or one that would fail its checks, changes no
byte; the data range is never changed. -/
def Obligations.AbortLosesDestination : Prop :=
  ∀ (s u : State) (v : Word), s.busy = true → v.getLsbD 1 = true → u = (s.busWrite ctrlOffset .b32 v).state →
    (∀ n, decode s.cmdLast = .command (.rsBlock n) → s.blockError n = none → ∀ a : Nat,
      Mem.lookup u.mem a
        = if s.dst.toNat ≤ a ∧ a < s.dst.toNat + n.toNat then none else Mem.lookup s.mem a) ∧
    (∀ n, decode s.cmdLast = .command (.rsBlock n) → s.blockError n ≠ none → u.mem = s.mem) ∧
    (∀ n, decode s.cmdLast = .command (.rsBlock n) → ∀ a : Nat,
      s.src.toNat ≤ a → a < s.src.toNat + s.len.toNat → Mem.lookup u.mem a = Mem.lookup s.mem a) ∧
    (∀ x e r, decode s.cmdLast = .command (.rsEncode x e) → s.capRow x e = some r → s.rowError r = none → ∀ a : Nat,
      Mem.lookup u.mem a
        = if s.dst.toNat ≤ a ∧ a < s.dst.toNat + r.etot then none else Mem.lookup s.mem a) ∧
    (∀ x e r, decode s.cmdLast = .command (.rsEncode x e) → s.capRow x e = some r → ∀ a : Nat,
      s.src.toNat ≤ a → a < s.src.toNat + r.ktot → Mem.lookup u.mem a = Mem.lookup s.mem a) ∧
    (∀ x e r, decode s.cmdLast = .command (.rsEncode x e) → s.capRow x e = some r → s.rowError r ≠ none →
      u.mem = s.mem) ∧
    (∀ x e, decode s.cmdLast = .command (.rsEncode x e) → s.capRow x e = none → u.mem = s.mem) ∧
    ((∀ n, decode s.cmdLast ≠ .command (.rsBlock n)) → (∀ x e, decode s.cmdLast ≠ .command (.rsEncode x e)) →
      u.mem = s.mem)

/-! ## The whole machine -/

/-- The invariant holds at power-on reset. -/
def Obligations.ResetMeetsInvariant : Prop := State.reset.Inv

/-- Every step keeps the invariant: CWMEM in canonical form, GDEG at most 30 with GEN holding its generator, ERRCODE never
10 to 15, ERR only beside a code, a running command's flags as accepted, the geometry registers of one row, the fault set a
set (R32, R34, R35, R38, R39, R152, R156, R158). -/
def Obligations.StepKeepsInvariant : Prop :=
  ∀ s t : State, s.Inv → step s = .next t → t.Inv

/-- No step clears a recorded model fault (R158). -/
def Obligations.FaultsNeverCleared : Prop :=
  ∀ s t : State, step s = .next t → ∀ f ∈ s.faults, f ∈ t.faults

/-- The constants of the machine: no step changes CAPTABLE (R49, R182; a field of State by log entry 5) or the host's
program (a field of State by log entry 2). -/
def Obligations.ConstantsNeverChange : Prop :=
  ∀ s t : State, step s = .next t → t.capTable = s.capTable ∧ t.hostProg = s.hostProg

/-- Only three events change a CWMEM byte: a host write through the window with BUSY = 0, the completion of an RS_BLOCK or
RS_ENCODE, and a soft reset that aborts one (R39, R40, R185, R195, R196). -/
def Obligations.OnlyTheseEventsChangeMemory : Prop :=
  ∀ s t : State, step s = .next t → t.mem ≠ s.mem →
    (s.turn = .host ∧ s.busy = false ∧ ∃ off w v, s.hostNext = some (.write off w v) ∧ 0x1000 ≤ off.toNat) ∨
    (s.turn = .engine ∧ s.busy = true ∧
      ((∃ n, decode s.cmdLast = .command (.rsBlock n)) ∨ ∃ v e, decode s.cmdLast = .command (.rsEncode v e))) ∨
    (s.turn = .host ∧ s.busy = true ∧
      ((∃ n, decode s.cmdLast = .command (.rsBlock n)) ∨ ∃ v e, decode s.cmdLast = .command (.rsEncode v e)) ∧
      ∃ v, s.hostNext = some (.write ctrlOffset .b32 v) ∧ v.getLsbD 1 = true)
end

