-- ==== Sys2Proof/Laws/Encoding.lean ====
section
/-!
SUPPORT. Laws/Encoding.lean: a command word as its four bytes, and what the three masks of the opcode map (30_encoding.md
R84) compare of them.
-/
namespace Sys2Proof

/-- A word is RSV1, B, A, and RSV0 with OP (R81). -/
theorem word_eq_bytes (w : Word) :
    w = w.extractLsb' 24 8 ++ w.extractLsb' 16 8 ++ w.extractLsb' 8 8 ++ w.extractLsb' 0 8 := by
  rw [BitVec.extractLsb'_append_extractLsb'_eq_extractLsb' (by rfl),
    BitVec.extractLsb'_append_extractLsb'_eq_extractLsb' (by rfl),
    BitVec.extractLsb'_append_extractLsb'_eq_extractLsb' (by rfl)]
  simp

/-- Two appended pairs are equal exactly when their parts are. -/
theorem append_eq_append_iff {m n : Nat} (x₁ x₂ : BitVec m) (y₁ y₂ : BitVec n) :
    x₁ ++ y₁ = x₂ ++ y₂ ↔ x₁ = x₂ ∧ y₁ = y₂ := by
  constructor
  · intro h
    refine ⟨?_, ?_⟩
    · have := congrArg (fun z => z.extractLsb' n m) h
      simpa [BitVec.extractLsb'_append_eq_left] using this
    · have := congrArg (fun z => z.extractLsb' 0 n) h
      simpa [BitVec.extractLsb'_append_eq_right] using this
  · rintro ⟨rfl, rfl⟩; rfl

/-- What the mask 0xFF0000FF of the format BIN compares (R84, R85). -/
theorem and_maskBin_eq_iff (d b a o p : Byte) :
    ((d ++ b ++ a ++ o : Word) &&& 0xFF0000FF = 0#8 ++ 0#8 ++ 0#8 ++ p) ↔ d = 0 ∧ o = p := by
  rw [show (0xFF0000FF : Word) = 0xFF#8 ++ 0#8 ++ 0#8 ++ 0xFF#8 by decide, BitVec.and_append, BitVec.and_append,
    BitVec.and_append, append_eq_append_iff, append_eq_append_iff, append_eq_append_iff]
  have ones : ∀ x : Byte, x &&& 0xFF#8 = x := fun x => BitVec.and_allOnes
  simp [ones]

/-- What the mask 0xFFFF00FF of the format UN compares (R84, R86). -/
theorem and_maskUn_eq_iff (d b a o p : Byte) :
    ((d ++ b ++ a ++ o : Word) &&& 0xFFFF00FF = 0#8 ++ 0#8 ++ 0#8 ++ p) ↔ d = 0 ∧ b = 0 ∧ o = p := by
  rw [show (0xFFFF00FF : Word) = 0xFF#8 ++ 0xFF#8 ++ 0#8 ++ 0xFF#8 by decide, BitVec.and_append, BitVec.and_append,
    BitVec.and_append, append_eq_append_iff, append_eq_append_iff, append_eq_append_iff]
  have ones : ∀ x : Byte, x &&& 0xFF#8 = x := fun x => BitVec.and_allOnes
  simp [ones, and_assoc]

/-- What the mask 0xFFFC00FF of the format ENC compares: of B, its upper six bits (R84, R87). -/
theorem and_maskEnc_eq_iff (d b a o p : Byte) :
    ((d ++ b ++ a ++ o : Word) &&& 0xFFFC00FF = 0#8 ++ 0#8 ++ 0#8 ++ p) ↔ d = 0 ∧ b &&& 0xFC = 0 ∧ o = p := by
  rw [show (0xFFFC00FF : Word) = 0xFF#8 ++ 0xFC#8 ++ 0#8 ++ 0xFF#8 by decide, BitVec.and_append, BitVec.and_append,
    BitVec.and_append, append_eq_append_iff, append_eq_append_iff, append_eq_append_iff]
  have ones : ∀ x : Byte, x &&& 0xFF#8 = x := fun x => BitVec.and_allOnes
  simp [ones, and_assoc]

/-- The field A of a packed word. -/
@[simp] theorem fieldA_packWord (b a o : Byte) : fieldA (packWord b a o) = a := by
  unfold fieldA packWord
  rw [BitVec.extractLsb'_append_eq_of_le (by decide)]
  exact BitVec.extractLsb'_append_eq_right

/-- The field B of a packed word. -/
@[simp] theorem fieldB_packWord (b a o : Byte) : fieldB (packWord b a o) = b := by
  unfold fieldB packWord
  rw [BitVec.extractLsb'_append_eq_of_le (by decide), BitVec.extractLsb'_append_eq_of_le (by decide)]
  exact BitVec.extractLsb'_append_eq_right

/-- The command-interface code of an EC level reads back (R83). -/
@[simp] theorem ecLevelOfBits_bits (e : EcLevel) : ecLevelOfBits (ecLevelBits e) = e := by
  cases e <;> rfl

@[simp] theorem ecLevelBits_ofBits : ∀ b : BitVec 2, ecLevelBits (ecLevelOfBits b) = b := by decide

end Sys2Proof
end

