-- ==== Sys2Proof/Laws/State.lean ====
section
/-!
SUPPORT. Laws/State.lean: what each named update does to each field of the state, true by rfl. A proof rewrites with
these and does not unfold a record update.
-/
namespace Sys2Proof.Machine

/-! The update State.setWerr. -/

@[simp] theorem State.setWerr_ie (s : State) : (s.setWerr).ie = s.ie := rfl
@[simp] theorem State.setWerr_busy (s : State) : (s.setWerr).busy = s.busy := rfl
@[simp] theorem State.setWerr_done (s : State) : (s.setWerr).done = s.done := rfl
@[simp] theorem State.setWerr_err (s : State) : (s.setWerr).err = s.err := rfl
@[simp] theorem State.setWerr_werr (s : State) : (s.setWerr).werr = true := rfl
@[simp] theorem State.setWerr_cmdLast (s : State) : (s.setWerr).cmdLast = s.cmdLast := rfl
@[simp] theorem State.setWerr_result (s : State) : (s.setWerr).result = s.result := rfl
@[simp] theorem State.setWerr_errcode (s : State) : (s.setWerr).errcode = s.errcode := rfl
@[simp] theorem State.setWerr_src (s : State) : (s.setWerr).src = s.src := rfl
@[simp] theorem State.setWerr_len (s : State) : (s.setWerr).len = s.len := rfl
@[simp] theorem State.setWerr_dst (s : State) : (s.setWerr).dst = s.dst := rfl
@[simp] theorem State.setWerr_gdeg (s : State) : (s.setWerr).gdeg = s.gdeg := rfl
@[simp] theorem State.setWerr_geom0 (s : State) : (s.setWerr).geom0 = s.geom0 := rfl
@[simp] theorem State.setWerr_geom1 (s : State) : (s.setWerr).geom1 = s.geom1 := rfl
@[simp] theorem State.setWerr_etot (s : State) : (s.setWerr).etot = s.etot := rfl
@[simp] theorem State.setWerr_gen (s : State) : (s.setWerr).gen = s.gen := rfl
@[simp] theorem State.setWerr_mem (s : State) : (s.setWerr).mem = s.mem := rfl
@[simp] theorem State.setWerr_capTable (s : State) : (s.setWerr).capTable = s.capTable := rfl
@[simp] theorem State.setWerr_faults (s : State) : (s.setWerr).faults = s.faults := rfl
@[simp] theorem State.setWerr_lostRanges (s : State) : (s.setWerr).lostRanges = s.lostRanges := rfl
@[simp] theorem State.setWerr_hostProg (s : State) : (s.setWerr).hostProg = s.hostProg := rfl
@[simp] theorem State.setWerr_hostPc (s : State) : (s.setWerr).hostPc = s.hostPc := rfl
@[simp] theorem State.setWerr_hostTemps (s : State) : (s.setWerr).hostTemps = s.hostTemps := rfl
@[simp] theorem State.setWerr_hostStatus (s : State) : (s.setWerr).hostStatus = s.hostStatus := rfl
@[simp] theorem State.setWerr_hostResp (s : State) : (s.setWerr).hostResp = s.hostResp := rfl
@[simp] theorem State.setWerr_schedule (s : State) : (s.setWerr).schedule = s.schedule := rfl

/-! The update State.endCommand. -/

@[simp] theorem State.endCommand_ie (s : State) : (s.endCommand).ie = s.ie := rfl
@[simp] theorem State.endCommand_busy (s : State) : (s.endCommand).busy = false := rfl
@[simp] theorem State.endCommand_done (s : State) : (s.endCommand).done = true := rfl
@[simp] theorem State.endCommand_err (s : State) : (s.endCommand).err = s.err := rfl
@[simp] theorem State.endCommand_werr (s : State) : (s.endCommand).werr = s.werr := rfl
@[simp] theorem State.endCommand_cmdLast (s : State) : (s.endCommand).cmdLast = s.cmdLast := rfl
@[simp] theorem State.endCommand_result (s : State) : (s.endCommand).result = s.result := rfl
@[simp] theorem State.endCommand_errcode (s : State) : (s.endCommand).errcode = s.errcode := rfl
@[simp] theorem State.endCommand_src (s : State) : (s.endCommand).src = s.src := rfl
@[simp] theorem State.endCommand_len (s : State) : (s.endCommand).len = s.len := rfl
@[simp] theorem State.endCommand_dst (s : State) : (s.endCommand).dst = s.dst := rfl
@[simp] theorem State.endCommand_gdeg (s : State) : (s.endCommand).gdeg = s.gdeg := rfl
@[simp] theorem State.endCommand_geom0 (s : State) : (s.endCommand).geom0 = s.geom0 := rfl
@[simp] theorem State.endCommand_geom1 (s : State) : (s.endCommand).geom1 = s.geom1 := rfl
@[simp] theorem State.endCommand_etot (s : State) : (s.endCommand).etot = s.etot := rfl
@[simp] theorem State.endCommand_gen (s : State) : (s.endCommand).gen = s.gen := rfl
@[simp] theorem State.endCommand_mem (s : State) : (s.endCommand).mem = s.mem := rfl
@[simp] theorem State.endCommand_capTable (s : State) : (s.endCommand).capTable = s.capTable := rfl
@[simp] theorem State.endCommand_faults (s : State) : (s.endCommand).faults = s.faults := rfl
@[simp] theorem State.endCommand_lostRanges (s : State) : (s.endCommand).lostRanges = s.lostRanges := rfl
@[simp] theorem State.endCommand_hostProg (s : State) : (s.endCommand).hostProg = s.hostProg := rfl
@[simp] theorem State.endCommand_hostPc (s : State) : (s.endCommand).hostPc = s.hostPc := rfl
@[simp] theorem State.endCommand_hostTemps (s : State) : (s.endCommand).hostTemps = s.hostTemps := rfl
@[simp] theorem State.endCommand_hostStatus (s : State) : (s.endCommand).hostStatus = s.hostStatus := rfl
@[simp] theorem State.endCommand_hostResp (s : State) : (s.endCommand).hostResp = s.hostResp := rfl
@[simp] theorem State.endCommand_schedule (s : State) : (s.endCommand).schedule = s.schedule := rfl

/-! The update State.complete. -/

@[simp] theorem State.complete_ie (s : State) : (s.complete).ie = s.ie := rfl
@[simp] theorem State.complete_busy (s : State) : (s.complete).busy = false := rfl
@[simp] theorem State.complete_done (s : State) : (s.complete).done = true := rfl
@[simp] theorem State.complete_err (s : State) : (s.complete).err = s.err := rfl
@[simp] theorem State.complete_werr (s : State) : (s.complete).werr = s.werr := rfl
@[simp] theorem State.complete_cmdLast (s : State) : (s.complete).cmdLast = s.cmdLast := rfl
@[simp] theorem State.complete_result (s : State) : (s.complete).result = s.result := rfl
@[simp] theorem State.complete_errcode (s : State) : (s.complete).errcode = 0 := rfl
@[simp] theorem State.complete_src (s : State) : (s.complete).src = s.src := rfl
@[simp] theorem State.complete_len (s : State) : (s.complete).len = s.len := rfl
@[simp] theorem State.complete_dst (s : State) : (s.complete).dst = s.dst := rfl
@[simp] theorem State.complete_gdeg (s : State) : (s.complete).gdeg = s.gdeg := rfl
@[simp] theorem State.complete_geom0 (s : State) : (s.complete).geom0 = s.geom0 := rfl
@[simp] theorem State.complete_geom1 (s : State) : (s.complete).geom1 = s.geom1 := rfl
@[simp] theorem State.complete_etot (s : State) : (s.complete).etot = s.etot := rfl
@[simp] theorem State.complete_gen (s : State) : (s.complete).gen = s.gen := rfl
@[simp] theorem State.complete_mem (s : State) : (s.complete).mem = s.mem := rfl
@[simp] theorem State.complete_capTable (s : State) : (s.complete).capTable = s.capTable := rfl
@[simp] theorem State.complete_faults (s : State) : (s.complete).faults = s.faults := rfl
@[simp] theorem State.complete_lostRanges (s : State) : (s.complete).lostRanges = s.lostRanges := rfl
@[simp] theorem State.complete_hostProg (s : State) : (s.complete).hostProg = s.hostProg := rfl
@[simp] theorem State.complete_hostPc (s : State) : (s.complete).hostPc = s.hostPc := rfl
@[simp] theorem State.complete_hostTemps (s : State) : (s.complete).hostTemps = s.hostTemps := rfl
@[simp] theorem State.complete_hostStatus (s : State) : (s.complete).hostStatus = s.hostStatus := rfl
@[simp] theorem State.complete_hostResp (s : State) : (s.complete).hostResp = s.hostResp := rfl
@[simp] theorem State.complete_schedule (s : State) : (s.complete).schedule = s.schedule := rfl

/-! The update State.raiseError. -/

@[simp] theorem State.raiseError_ie (s : State) (c : ErrCode) : (s.raiseError c).ie = s.ie := rfl
@[simp] theorem State.raiseError_busy (s : State) (c : ErrCode) : (s.raiseError c).busy = false := rfl
@[simp] theorem State.raiseError_done (s : State) (c : ErrCode) : (s.raiseError c).done = true := rfl
@[simp] theorem State.raiseError_err (s : State) (c : ErrCode) : (s.raiseError c).err = true := rfl
@[simp] theorem State.raiseError_werr (s : State) (c : ErrCode) : (s.raiseError c).werr = s.werr := rfl
@[simp] theorem State.raiseError_cmdLast (s : State) (c : ErrCode) : (s.raiseError c).cmdLast = s.cmdLast := rfl
@[simp] theorem State.raiseError_result (s : State) (c : ErrCode) : (s.raiseError c).result = s.result := rfl
@[simp] theorem State.raiseError_errcode (s : State) (c : ErrCode) : (s.raiseError c).errcode = c.code := rfl
@[simp] theorem State.raiseError_src (s : State) (c : ErrCode) : (s.raiseError c).src = s.src := rfl
@[simp] theorem State.raiseError_len (s : State) (c : ErrCode) : (s.raiseError c).len = s.len := rfl
@[simp] theorem State.raiseError_dst (s : State) (c : ErrCode) : (s.raiseError c).dst = s.dst := rfl
@[simp] theorem State.raiseError_gdeg (s : State) (c : ErrCode) : (s.raiseError c).gdeg = s.gdeg := rfl
@[simp] theorem State.raiseError_geom0 (s : State) (c : ErrCode) : (s.raiseError c).geom0 = s.geom0 := rfl
@[simp] theorem State.raiseError_geom1 (s : State) (c : ErrCode) : (s.raiseError c).geom1 = s.geom1 := rfl
@[simp] theorem State.raiseError_etot (s : State) (c : ErrCode) : (s.raiseError c).etot = s.etot := rfl
@[simp] theorem State.raiseError_gen (s : State) (c : ErrCode) : (s.raiseError c).gen = s.gen := rfl
@[simp] theorem State.raiseError_mem (s : State) (c : ErrCode) : (s.raiseError c).mem = s.mem := rfl
@[simp] theorem State.raiseError_capTable (s : State) (c : ErrCode) : (s.raiseError c).capTable = s.capTable := rfl
@[simp] theorem State.raiseError_faults (s : State) (c : ErrCode) : (s.raiseError c).faults = s.faults := rfl
@[simp] theorem State.raiseError_lostRanges (s : State) (c : ErrCode) : (s.raiseError c).lostRanges = s.lostRanges := rfl
@[simp] theorem State.raiseError_hostProg (s : State) (c : ErrCode) : (s.raiseError c).hostProg = s.hostProg := rfl
@[simp] theorem State.raiseError_hostPc (s : State) (c : ErrCode) : (s.raiseError c).hostPc = s.hostPc := rfl
@[simp] theorem State.raiseError_hostTemps (s : State) (c : ErrCode) : (s.raiseError c).hostTemps = s.hostTemps := rfl
@[simp] theorem State.raiseError_hostStatus (s : State) (c : ErrCode) : (s.raiseError c).hostStatus = s.hostStatus := rfl
@[simp] theorem State.raiseError_hostResp (s : State) (c : ErrCode) : (s.raiseError c).hostResp = s.hostResp := rfl
@[simp] theorem State.raiseError_schedule (s : State) (c : ErrCode) : (s.raiseError c).schedule = s.schedule := rfl

/-! The update State.completeWith. -/

@[simp] theorem State.completeWith_ie (s : State) (v : Byte) : (s.completeWith v).ie = s.ie := rfl
@[simp] theorem State.completeWith_busy (s : State) (v : Byte) : (s.completeWith v).busy = false := rfl
@[simp] theorem State.completeWith_done (s : State) (v : Byte) : (s.completeWith v).done = true := rfl
@[simp] theorem State.completeWith_err (s : State) (v : Byte) : (s.completeWith v).err = s.err := rfl
@[simp] theorem State.completeWith_werr (s : State) (v : Byte) : (s.completeWith v).werr = s.werr := rfl
@[simp] theorem State.completeWith_cmdLast (s : State) (v : Byte) : (s.completeWith v).cmdLast = s.cmdLast := rfl
@[simp] theorem State.completeWith_result (s : State) (v : Byte) : (s.completeWith v).result = v := rfl
@[simp] theorem State.completeWith_errcode (s : State) (v : Byte) : (s.completeWith v).errcode = 0 := rfl
@[simp] theorem State.completeWith_src (s : State) (v : Byte) : (s.completeWith v).src = s.src := rfl
@[simp] theorem State.completeWith_len (s : State) (v : Byte) : (s.completeWith v).len = s.len := rfl
@[simp] theorem State.completeWith_dst (s : State) (v : Byte) : (s.completeWith v).dst = s.dst := rfl
@[simp] theorem State.completeWith_gdeg (s : State) (v : Byte) : (s.completeWith v).gdeg = s.gdeg := rfl
@[simp] theorem State.completeWith_geom0 (s : State) (v : Byte) : (s.completeWith v).geom0 = s.geom0 := rfl
@[simp] theorem State.completeWith_geom1 (s : State) (v : Byte) : (s.completeWith v).geom1 = s.geom1 := rfl
@[simp] theorem State.completeWith_etot (s : State) (v : Byte) : (s.completeWith v).etot = s.etot := rfl
@[simp] theorem State.completeWith_gen (s : State) (v : Byte) : (s.completeWith v).gen = s.gen := rfl
@[simp] theorem State.completeWith_mem (s : State) (v : Byte) : (s.completeWith v).mem = s.mem := rfl
@[simp] theorem State.completeWith_capTable (s : State) (v : Byte) : (s.completeWith v).capTable = s.capTable := rfl
@[simp] theorem State.completeWith_faults (s : State) (v : Byte) : (s.completeWith v).faults = s.faults := rfl
@[simp] theorem State.completeWith_lostRanges (s : State) (v : Byte) : (s.completeWith v).lostRanges = s.lostRanges := rfl
@[simp] theorem State.completeWith_hostProg (s : State) (v : Byte) : (s.completeWith v).hostProg = s.hostProg := rfl
@[simp] theorem State.completeWith_hostPc (s : State) (v : Byte) : (s.completeWith v).hostPc = s.hostPc := rfl
@[simp] theorem State.completeWith_hostTemps (s : State) (v : Byte) : (s.completeWith v).hostTemps = s.hostTemps := rfl
@[simp] theorem State.completeWith_hostStatus (s : State) (v : Byte) : (s.completeWith v).hostStatus = s.hostStatus := rfl
@[simp] theorem State.completeWith_hostResp (s : State) (v : Byte) : (s.completeWith v).hostResp = s.hostResp := rfl
@[simp] theorem State.completeWith_schedule (s : State) (v : Byte) : (s.completeWith v).schedule = s.schedule := rfl

/-! The update State.accept. -/

@[simp] theorem State.accept_ie (s : State) (w : Word) : (s.accept w).ie = s.ie := rfl
@[simp] theorem State.accept_busy (s : State) (w : Word) : (s.accept w).busy = true := rfl
@[simp] theorem State.accept_done (s : State) (w : Word) : (s.accept w).done = false := rfl
@[simp] theorem State.accept_err (s : State) (w : Word) : (s.accept w).err = false := rfl
@[simp] theorem State.accept_werr (s : State) (w : Word) : (s.accept w).werr = s.werr := rfl
@[simp] theorem State.accept_cmdLast (s : State) (w : Word) : (s.accept w).cmdLast = w := rfl
@[simp] theorem State.accept_result (s : State) (w : Word) : (s.accept w).result = s.result := rfl
@[simp] theorem State.accept_errcode (s : State) (w : Word) : (s.accept w).errcode = 0 := rfl
@[simp] theorem State.accept_src (s : State) (w : Word) : (s.accept w).src = s.src := rfl
@[simp] theorem State.accept_len (s : State) (w : Word) : (s.accept w).len = s.len := rfl
@[simp] theorem State.accept_dst (s : State) (w : Word) : (s.accept w).dst = s.dst := rfl
@[simp] theorem State.accept_gdeg (s : State) (w : Word) : (s.accept w).gdeg = s.gdeg := rfl
@[simp] theorem State.accept_geom0 (s : State) (w : Word) : (s.accept w).geom0 = s.geom0 := rfl
@[simp] theorem State.accept_geom1 (s : State) (w : Word) : (s.accept w).geom1 = s.geom1 := rfl
@[simp] theorem State.accept_etot (s : State) (w : Word) : (s.accept w).etot = s.etot := rfl
@[simp] theorem State.accept_gen (s : State) (w : Word) : (s.accept w).gen = s.gen := rfl
@[simp] theorem State.accept_mem (s : State) (w : Word) : (s.accept w).mem = s.mem := rfl
@[simp] theorem State.accept_capTable (s : State) (w : Word) : (s.accept w).capTable = s.capTable := rfl
@[simp] theorem State.accept_faults (s : State) (w : Word) : (s.accept w).faults = s.faults := rfl
@[simp] theorem State.accept_lostRanges (s : State) (w : Word) : (s.accept w).lostRanges = s.lostRanges := rfl
@[simp] theorem State.accept_hostProg (s : State) (w : Word) : (s.accept w).hostProg = s.hostProg := rfl
@[simp] theorem State.accept_hostPc (s : State) (w : Word) : (s.accept w).hostPc = s.hostPc := rfl
@[simp] theorem State.accept_hostTemps (s : State) (w : Word) : (s.accept w).hostTemps = s.hostTemps := rfl
@[simp] theorem State.accept_hostStatus (s : State) (w : Word) : (s.accept w).hostStatus = s.hostStatus := rfl
@[simp] theorem State.accept_hostResp (s : State) (w : Word) : (s.accept w).hostResp = s.hostResp := rfl
@[simp] theorem State.accept_schedule (s : State) (w : Word) : (s.accept w).schedule = s.schedule := rfl

/-! The update State.writeCw. -/

@[simp] theorem State.writeCw_ie (s : State) (a : Nat) (vs : List Byte) : (s.writeCw a vs).ie = s.ie := rfl
@[simp] theorem State.writeCw_busy (s : State) (a : Nat) (vs : List Byte) : (s.writeCw a vs).busy = s.busy := rfl
@[simp] theorem State.writeCw_done (s : State) (a : Nat) (vs : List Byte) : (s.writeCw a vs).done = s.done := rfl
@[simp] theorem State.writeCw_err (s : State) (a : Nat) (vs : List Byte) : (s.writeCw a vs).err = s.err := rfl
@[simp] theorem State.writeCw_werr (s : State) (a : Nat) (vs : List Byte) : (s.writeCw a vs).werr = s.werr := rfl
@[simp] theorem State.writeCw_cmdLast (s : State) (a : Nat) (vs : List Byte) : (s.writeCw a vs).cmdLast = s.cmdLast := rfl
@[simp] theorem State.writeCw_result (s : State) (a : Nat) (vs : List Byte) : (s.writeCw a vs).result = s.result := rfl
@[simp] theorem State.writeCw_errcode (s : State) (a : Nat) (vs : List Byte) : (s.writeCw a vs).errcode = s.errcode := rfl
@[simp] theorem State.writeCw_src (s : State) (a : Nat) (vs : List Byte) : (s.writeCw a vs).src = s.src := rfl
@[simp] theorem State.writeCw_len (s : State) (a : Nat) (vs : List Byte) : (s.writeCw a vs).len = s.len := rfl
@[simp] theorem State.writeCw_dst (s : State) (a : Nat) (vs : List Byte) : (s.writeCw a vs).dst = s.dst := rfl
@[simp] theorem State.writeCw_gdeg (s : State) (a : Nat) (vs : List Byte) : (s.writeCw a vs).gdeg = s.gdeg := rfl
@[simp] theorem State.writeCw_geom0 (s : State) (a : Nat) (vs : List Byte) : (s.writeCw a vs).geom0 = s.geom0 := rfl
@[simp] theorem State.writeCw_geom1 (s : State) (a : Nat) (vs : List Byte) : (s.writeCw a vs).geom1 = s.geom1 := rfl
@[simp] theorem State.writeCw_etot (s : State) (a : Nat) (vs : List Byte) : (s.writeCw a vs).etot = s.etot := rfl
@[simp] theorem State.writeCw_gen (s : State) (a : Nat) (vs : List Byte) : (s.writeCw a vs).gen = s.gen := rfl
@[simp] theorem State.writeCw_mem (s : State) (a : Nat) (vs : List Byte) : (s.writeCw a vs).mem = s.mem.insertAll a vs := rfl
@[simp] theorem State.writeCw_capTable (s : State) (a : Nat) (vs : List Byte) : (s.writeCw a vs).capTable = s.capTable := rfl
@[simp] theorem State.writeCw_faults (s : State) (a : Nat) (vs : List Byte) : (s.writeCw a vs).faults = s.faults := rfl
@[simp] theorem State.writeCw_lostRanges (s : State) (a : Nat) (vs : List Byte) : (s.writeCw a vs).lostRanges = s.lostRanges := rfl
@[simp] theorem State.writeCw_hostProg (s : State) (a : Nat) (vs : List Byte) : (s.writeCw a vs).hostProg = s.hostProg := rfl
@[simp] theorem State.writeCw_hostPc (s : State) (a : Nat) (vs : List Byte) : (s.writeCw a vs).hostPc = s.hostPc := rfl
@[simp] theorem State.writeCw_hostTemps (s : State) (a : Nat) (vs : List Byte) : (s.writeCw a vs).hostTemps = s.hostTemps := rfl
@[simp] theorem State.writeCw_hostStatus (s : State) (a : Nat) (vs : List Byte) : (s.writeCw a vs).hostStatus = s.hostStatus := rfl
@[simp] theorem State.writeCw_hostResp (s : State) (a : Nat) (vs : List Byte) : (s.writeCw a vs).hostResp = s.hostResp := rfl
@[simp] theorem State.writeCw_schedule (s : State) (a : Nat) (vs : List Byte) : (s.writeCw a vs).schedule = s.schedule := rfl

/-! The update State.recordUninit. -/

@[simp] theorem State.recordUninit_ie (s : State) (a k : Nat) : (s.recordUninit a k).ie = s.ie := rfl
@[simp] theorem State.recordUninit_busy (s : State) (a k : Nat) : (s.recordUninit a k).busy = s.busy := rfl
@[simp] theorem State.recordUninit_done (s : State) (a k : Nat) : (s.recordUninit a k).done = s.done := rfl
@[simp] theorem State.recordUninit_err (s : State) (a k : Nat) : (s.recordUninit a k).err = s.err := rfl
@[simp] theorem State.recordUninit_werr (s : State) (a k : Nat) : (s.recordUninit a k).werr = s.werr := rfl
@[simp] theorem State.recordUninit_cmdLast (s : State) (a k : Nat) : (s.recordUninit a k).cmdLast = s.cmdLast := rfl
@[simp] theorem State.recordUninit_result (s : State) (a k : Nat) : (s.recordUninit a k).result = s.result := rfl
@[simp] theorem State.recordUninit_errcode (s : State) (a k : Nat) : (s.recordUninit a k).errcode = s.errcode := rfl
@[simp] theorem State.recordUninit_src (s : State) (a k : Nat) : (s.recordUninit a k).src = s.src := rfl
@[simp] theorem State.recordUninit_len (s : State) (a k : Nat) : (s.recordUninit a k).len = s.len := rfl
@[simp] theorem State.recordUninit_dst (s : State) (a k : Nat) : (s.recordUninit a k).dst = s.dst := rfl
@[simp] theorem State.recordUninit_gdeg (s : State) (a k : Nat) : (s.recordUninit a k).gdeg = s.gdeg := rfl
@[simp] theorem State.recordUninit_geom0 (s : State) (a k : Nat) : (s.recordUninit a k).geom0 = s.geom0 := rfl
@[simp] theorem State.recordUninit_geom1 (s : State) (a k : Nat) : (s.recordUninit a k).geom1 = s.geom1 := rfl
@[simp] theorem State.recordUninit_etot (s : State) (a k : Nat) : (s.recordUninit a k).etot = s.etot := rfl
@[simp] theorem State.recordUninit_gen (s : State) (a k : Nat) : (s.recordUninit a k).gen = s.gen := rfl
@[simp] theorem State.recordUninit_mem (s : State) (a k : Nat) : (s.recordUninit a k).mem = s.mem := rfl
@[simp] theorem State.recordUninit_capTable (s : State) (a k : Nat) : (s.recordUninit a k).capTable = s.capTable := rfl
@[simp] theorem State.recordUninit_lostRanges (s : State) (a k : Nat) : (s.recordUninit a k).lostRanges = s.lostRanges := rfl
@[simp] theorem State.recordUninit_hostProg (s : State) (a k : Nat) : (s.recordUninit a k).hostProg = s.hostProg := rfl
@[simp] theorem State.recordUninit_hostPc (s : State) (a k : Nat) : (s.recordUninit a k).hostPc = s.hostPc := rfl
@[simp] theorem State.recordUninit_hostTemps (s : State) (a k : Nat) : (s.recordUninit a k).hostTemps = s.hostTemps := rfl
@[simp] theorem State.recordUninit_hostStatus (s : State) (a k : Nat) : (s.recordUninit a k).hostStatus = s.hostStatus := rfl
@[simp] theorem State.recordUninit_hostResp (s : State) (a k : Nat) : (s.recordUninit a k).hostResp = s.hostResp := rfl
@[simp] theorem State.recordUninit_schedule (s : State) (a k : Nat) : (s.recordUninit a k).schedule = s.schedule := rfl

/-! The update State.recordReserved. -/

@[simp] theorem State.recordReserved_ie (s : State) (off : Offset) : (s.recordReserved off).ie = s.ie := rfl
@[simp] theorem State.recordReserved_busy (s : State) (off : Offset) : (s.recordReserved off).busy = s.busy := rfl
@[simp] theorem State.recordReserved_done (s : State) (off : Offset) : (s.recordReserved off).done = s.done := rfl
@[simp] theorem State.recordReserved_err (s : State) (off : Offset) : (s.recordReserved off).err = s.err := rfl
@[simp] theorem State.recordReserved_werr (s : State) (off : Offset) : (s.recordReserved off).werr = s.werr := rfl
@[simp] theorem State.recordReserved_cmdLast (s : State) (off : Offset) : (s.recordReserved off).cmdLast = s.cmdLast := rfl
@[simp] theorem State.recordReserved_result (s : State) (off : Offset) : (s.recordReserved off).result = s.result := rfl
@[simp] theorem State.recordReserved_errcode (s : State) (off : Offset) : (s.recordReserved off).errcode = s.errcode := rfl
@[simp] theorem State.recordReserved_src (s : State) (off : Offset) : (s.recordReserved off).src = s.src := rfl
@[simp] theorem State.recordReserved_len (s : State) (off : Offset) : (s.recordReserved off).len = s.len := rfl
@[simp] theorem State.recordReserved_dst (s : State) (off : Offset) : (s.recordReserved off).dst = s.dst := rfl
@[simp] theorem State.recordReserved_gdeg (s : State) (off : Offset) : (s.recordReserved off).gdeg = s.gdeg := rfl
@[simp] theorem State.recordReserved_geom0 (s : State) (off : Offset) : (s.recordReserved off).geom0 = s.geom0 := rfl
@[simp] theorem State.recordReserved_geom1 (s : State) (off : Offset) : (s.recordReserved off).geom1 = s.geom1 := rfl
@[simp] theorem State.recordReserved_etot (s : State) (off : Offset) : (s.recordReserved off).etot = s.etot := rfl
@[simp] theorem State.recordReserved_gen (s : State) (off : Offset) : (s.recordReserved off).gen = s.gen := rfl
@[simp] theorem State.recordReserved_mem (s : State) (off : Offset) : (s.recordReserved off).mem = s.mem := rfl
@[simp] theorem State.recordReserved_capTable (s : State) (off : Offset) : (s.recordReserved off).capTable = s.capTable := rfl
@[simp] theorem State.recordReserved_faults (s : State) (off : Offset) : (s.recordReserved off).faults = addFault s.faults (.reservedOffset off) := rfl
@[simp] theorem State.recordReserved_lostRanges (s : State) (off : Offset) : (s.recordReserved off).lostRanges = s.lostRanges := rfl
@[simp] theorem State.recordReserved_hostProg (s : State) (off : Offset) : (s.recordReserved off).hostProg = s.hostProg := rfl
@[simp] theorem State.recordReserved_hostPc (s : State) (off : Offset) : (s.recordReserved off).hostPc = s.hostPc := rfl
@[simp] theorem State.recordReserved_hostTemps (s : State) (off : Offset) : (s.recordReserved off).hostTemps = s.hostTemps := rfl
@[simp] theorem State.recordReserved_hostStatus (s : State) (off : Offset) : (s.recordReserved off).hostStatus = s.hostStatus := rfl
@[simp] theorem State.recordReserved_hostResp (s : State) (off : Offset) : (s.recordReserved off).hostResp = s.hostResp := rfl
@[simp] theorem State.recordReserved_schedule (s : State) (off : Offset) : (s.recordReserved off).schedule = s.schedule := rfl

/-! The update State.loseRange. -/

@[simp] theorem State.loseRange_ie (s : State) (a n : Nat) : (s.loseRange a n).ie = s.ie := rfl
@[simp] theorem State.loseRange_busy (s : State) (a n : Nat) : (s.loseRange a n).busy = s.busy := rfl
@[simp] theorem State.loseRange_done (s : State) (a n : Nat) : (s.loseRange a n).done = s.done := rfl
@[simp] theorem State.loseRange_err (s : State) (a n : Nat) : (s.loseRange a n).err = s.err := rfl
@[simp] theorem State.loseRange_werr (s : State) (a n : Nat) : (s.loseRange a n).werr = s.werr := rfl
@[simp] theorem State.loseRange_cmdLast (s : State) (a n : Nat) : (s.loseRange a n).cmdLast = s.cmdLast := rfl
@[simp] theorem State.loseRange_result (s : State) (a n : Nat) : (s.loseRange a n).result = s.result := rfl
@[simp] theorem State.loseRange_errcode (s : State) (a n : Nat) : (s.loseRange a n).errcode = s.errcode := rfl
@[simp] theorem State.loseRange_src (s : State) (a n : Nat) : (s.loseRange a n).src = s.src := rfl
@[simp] theorem State.loseRange_len (s : State) (a n : Nat) : (s.loseRange a n).len = s.len := rfl
@[simp] theorem State.loseRange_dst (s : State) (a n : Nat) : (s.loseRange a n).dst = s.dst := rfl
@[simp] theorem State.loseRange_gdeg (s : State) (a n : Nat) : (s.loseRange a n).gdeg = s.gdeg := rfl
@[simp] theorem State.loseRange_geom0 (s : State) (a n : Nat) : (s.loseRange a n).geom0 = s.geom0 := rfl
@[simp] theorem State.loseRange_geom1 (s : State) (a n : Nat) : (s.loseRange a n).geom1 = s.geom1 := rfl
@[simp] theorem State.loseRange_etot (s : State) (a n : Nat) : (s.loseRange a n).etot = s.etot := rfl
@[simp] theorem State.loseRange_gen (s : State) (a n : Nat) : (s.loseRange a n).gen = s.gen := rfl
@[simp] theorem State.loseRange_mem (s : State) (a n : Nat) : (s.loseRange a n).mem = s.mem.eraseRange a n := rfl
@[simp] theorem State.loseRange_capTable (s : State) (a n : Nat) : (s.loseRange a n).capTable = s.capTable := rfl
@[simp] theorem State.loseRange_faults (s : State) (a n : Nat) : (s.loseRange a n).faults = s.faults := rfl
@[simp] theorem State.loseRange_lostRanges (s : State) (a n : Nat) : (s.loseRange a n).lostRanges = s.lostRanges ++ [(a, n)] := rfl
@[simp] theorem State.loseRange_hostProg (s : State) (a n : Nat) : (s.loseRange a n).hostProg = s.hostProg := rfl
@[simp] theorem State.loseRange_hostPc (s : State) (a n : Nat) : (s.loseRange a n).hostPc = s.hostPc := rfl
@[simp] theorem State.loseRange_hostTemps (s : State) (a n : Nat) : (s.loseRange a n).hostTemps = s.hostTemps := rfl
@[simp] theorem State.loseRange_hostStatus (s : State) (a n : Nat) : (s.loseRange a n).hostStatus = s.hostStatus := rfl
@[simp] theorem State.loseRange_hostResp (s : State) (a n : Nat) : (s.loseRange a n).hostResp = s.hostResp := rfl
@[simp] theorem State.loseRange_schedule (s : State) (a n : Nat) : (s.loseRange a n).schedule = s.schedule := rfl

/-! The update State.setGenerator. -/

@[simp] theorem State.setGenerator_ie (s : State) (n : Nat) : (s.setGenerator n).ie = s.ie := rfl
@[simp] theorem State.setGenerator_busy (s : State) (n : Nat) : (s.setGenerator n).busy = s.busy := rfl
@[simp] theorem State.setGenerator_done (s : State) (n : Nat) : (s.setGenerator n).done = s.done := rfl
@[simp] theorem State.setGenerator_err (s : State) (n : Nat) : (s.setGenerator n).err = s.err := rfl
@[simp] theorem State.setGenerator_werr (s : State) (n : Nat) : (s.setGenerator n).werr = s.werr := rfl
@[simp] theorem State.setGenerator_cmdLast (s : State) (n : Nat) : (s.setGenerator n).cmdLast = s.cmdLast := rfl
@[simp] theorem State.setGenerator_result (s : State) (n : Nat) : (s.setGenerator n).result = s.result := rfl
@[simp] theorem State.setGenerator_errcode (s : State) (n : Nat) : (s.setGenerator n).errcode = s.errcode := rfl
@[simp] theorem State.setGenerator_src (s : State) (n : Nat) : (s.setGenerator n).src = s.src := rfl
@[simp] theorem State.setGenerator_len (s : State) (n : Nat) : (s.setGenerator n).len = s.len := rfl
@[simp] theorem State.setGenerator_dst (s : State) (n : Nat) : (s.setGenerator n).dst = s.dst := rfl
@[simp] theorem State.setGenerator_gdeg (s : State) (n : Nat) : (s.setGenerator n).gdeg = BitVec.ofNat 6 n := rfl
@[simp] theorem State.setGenerator_geom0 (s : State) (n : Nat) : (s.setGenerator n).geom0 = s.geom0 := rfl
@[simp] theorem State.setGenerator_geom1 (s : State) (n : Nat) : (s.setGenerator n).geom1 = s.geom1 := rfl
@[simp] theorem State.setGenerator_etot (s : State) (n : Nat) : (s.setGenerator n).etot = s.etot := rfl
@[simp] theorem State.setGenerator_gen (s : State) (n : Nat) : (s.setGenerator n).gen = genRegisters n := rfl
@[simp] theorem State.setGenerator_mem (s : State) (n : Nat) : (s.setGenerator n).mem = s.mem := rfl
@[simp] theorem State.setGenerator_capTable (s : State) (n : Nat) : (s.setGenerator n).capTable = s.capTable := rfl
@[simp] theorem State.setGenerator_faults (s : State) (n : Nat) : (s.setGenerator n).faults = s.faults := rfl
@[simp] theorem State.setGenerator_lostRanges (s : State) (n : Nat) : (s.setGenerator n).lostRanges = s.lostRanges := rfl
@[simp] theorem State.setGenerator_hostProg (s : State) (n : Nat) : (s.setGenerator n).hostProg = s.hostProg := rfl
@[simp] theorem State.setGenerator_hostPc (s : State) (n : Nat) : (s.setGenerator n).hostPc = s.hostPc := rfl
@[simp] theorem State.setGenerator_hostTemps (s : State) (n : Nat) : (s.setGenerator n).hostTemps = s.hostTemps := rfl
@[simp] theorem State.setGenerator_hostStatus (s : State) (n : Nat) : (s.setGenerator n).hostStatus = s.hostStatus := rfl
@[simp] theorem State.setGenerator_hostResp (s : State) (n : Nat) : (s.setGenerator n).hostResp = s.hostResp := rfl
@[simp] theorem State.setGenerator_schedule (s : State) (n : Nat) : (s.setGenerator n).schedule = s.schedule := rfl

/-! The update State.setGeometry. -/

@[simp] theorem State.setGeometry_ie (s : State) (r : CapRow) : (s.setGeometry r).ie = s.ie := rfl
@[simp] theorem State.setGeometry_busy (s : State) (r : CapRow) : (s.setGeometry r).busy = s.busy := rfl
@[simp] theorem State.setGeometry_done (s : State) (r : CapRow) : (s.setGeometry r).done = s.done := rfl
@[simp] theorem State.setGeometry_err (s : State) (r : CapRow) : (s.setGeometry r).err = s.err := rfl
@[simp] theorem State.setGeometry_werr (s : State) (r : CapRow) : (s.setGeometry r).werr = s.werr := rfl
@[simp] theorem State.setGeometry_cmdLast (s : State) (r : CapRow) : (s.setGeometry r).cmdLast = s.cmdLast := rfl
@[simp] theorem State.setGeometry_result (s : State) (r : CapRow) : (s.setGeometry r).result = s.result := rfl
@[simp] theorem State.setGeometry_errcode (s : State) (r : CapRow) : (s.setGeometry r).errcode = s.errcode := rfl
@[simp] theorem State.setGeometry_src (s : State) (r : CapRow) : (s.setGeometry r).src = s.src := rfl
@[simp] theorem State.setGeometry_len (s : State) (r : CapRow) : (s.setGeometry r).len = s.len := rfl
@[simp] theorem State.setGeometry_dst (s : State) (r : CapRow) : (s.setGeometry r).dst = s.dst := rfl
@[simp] theorem State.setGeometry_gdeg (s : State) (r : CapRow) : (s.setGeometry r).gdeg = s.gdeg := rfl
@[simp] theorem State.setGeometry_geom0 (s : State) (r : CapRow) : (s.setGeometry r).geom0 = r.g2k ++ r.g2c ++ r.g1k ++ r.g1c := rfl
@[simp] theorem State.setGeometry_geom1 (s : State) (r : CapRow) : (s.setGeometry r).geom1 = BitVec.ofNat 13 r.ktot ++ BitVec.ofNat 8 r.nblk ++ r.nec := rfl
@[simp] theorem State.setGeometry_etot (s : State) (r : CapRow) : (s.setGeometry r).etot = BitVec.ofNat 13 r.etot := rfl
@[simp] theorem State.setGeometry_gen (s : State) (r : CapRow) : (s.setGeometry r).gen = s.gen := rfl
@[simp] theorem State.setGeometry_mem (s : State) (r : CapRow) : (s.setGeometry r).mem = s.mem := rfl
@[simp] theorem State.setGeometry_capTable (s : State) (r : CapRow) : (s.setGeometry r).capTable = s.capTable := rfl
@[simp] theorem State.setGeometry_faults (s : State) (r : CapRow) : (s.setGeometry r).faults = s.faults := rfl
@[simp] theorem State.setGeometry_lostRanges (s : State) (r : CapRow) : (s.setGeometry r).lostRanges = s.lostRanges := rfl
@[simp] theorem State.setGeometry_hostProg (s : State) (r : CapRow) : (s.setGeometry r).hostProg = s.hostProg := rfl
@[simp] theorem State.setGeometry_hostPc (s : State) (r : CapRow) : (s.setGeometry r).hostPc = s.hostPc := rfl
@[simp] theorem State.setGeometry_hostTemps (s : State) (r : CapRow) : (s.setGeometry r).hostTemps = s.hostTemps := rfl
@[simp] theorem State.setGeometry_hostStatus (s : State) (r : CapRow) : (s.setGeometry r).hostStatus = s.hostStatus := rfl
@[simp] theorem State.setGeometry_hostResp (s : State) (r : CapRow) : (s.setGeometry r).hostResp = s.hostResp := rfl
@[simp] theorem State.setGeometry_schedule (s : State) (r : CapRow) : (s.setGeometry r).schedule = s.schedule := rfl

/-! The update State.takeTurn. -/

@[simp] theorem State.takeTurn_ie (s : State) : (s.takeTurn).ie = s.ie := rfl
@[simp] theorem State.takeTurn_busy (s : State) : (s.takeTurn).busy = s.busy := rfl
@[simp] theorem State.takeTurn_done (s : State) : (s.takeTurn).done = s.done := rfl
@[simp] theorem State.takeTurn_err (s : State) : (s.takeTurn).err = s.err := rfl
@[simp] theorem State.takeTurn_werr (s : State) : (s.takeTurn).werr = s.werr := rfl
@[simp] theorem State.takeTurn_cmdLast (s : State) : (s.takeTurn).cmdLast = s.cmdLast := rfl
@[simp] theorem State.takeTurn_result (s : State) : (s.takeTurn).result = s.result := rfl
@[simp] theorem State.takeTurn_errcode (s : State) : (s.takeTurn).errcode = s.errcode := rfl
@[simp] theorem State.takeTurn_src (s : State) : (s.takeTurn).src = s.src := rfl
@[simp] theorem State.takeTurn_len (s : State) : (s.takeTurn).len = s.len := rfl
@[simp] theorem State.takeTurn_dst (s : State) : (s.takeTurn).dst = s.dst := rfl
@[simp] theorem State.takeTurn_gdeg (s : State) : (s.takeTurn).gdeg = s.gdeg := rfl
@[simp] theorem State.takeTurn_geom0 (s : State) : (s.takeTurn).geom0 = s.geom0 := rfl
@[simp] theorem State.takeTurn_geom1 (s : State) : (s.takeTurn).geom1 = s.geom1 := rfl
@[simp] theorem State.takeTurn_etot (s : State) : (s.takeTurn).etot = s.etot := rfl
@[simp] theorem State.takeTurn_gen (s : State) : (s.takeTurn).gen = s.gen := rfl
@[simp] theorem State.takeTurn_mem (s : State) : (s.takeTurn).mem = s.mem := rfl
@[simp] theorem State.takeTurn_capTable (s : State) : (s.takeTurn).capTable = s.capTable := rfl
@[simp] theorem State.takeTurn_faults (s : State) : (s.takeTurn).faults = s.faults := rfl
@[simp] theorem State.takeTurn_lostRanges (s : State) : (s.takeTurn).lostRanges = s.lostRanges := rfl
@[simp] theorem State.takeTurn_hostProg (s : State) : (s.takeTurn).hostProg = s.hostProg := rfl
@[simp] theorem State.takeTurn_hostPc (s : State) : (s.takeTurn).hostPc = s.hostPc := rfl
@[simp] theorem State.takeTurn_hostTemps (s : State) : (s.takeTurn).hostTemps = s.hostTemps := rfl
@[simp] theorem State.takeTurn_hostStatus (s : State) : (s.takeTurn).hostStatus = s.hostStatus := rfl
@[simp] theorem State.takeTurn_hostResp (s : State) : (s.takeTurn).hostResp = s.hostResp := rfl
@[simp] theorem State.takeTurn_schedule (s : State) : (s.takeTurn).schedule = s.schedule.tail := rfl

/-! SOFT_RESET: the registers it returns to their reset values (R184). -/

@[simp] theorem State.softReset_ie (s : State) : s.softReset.ie = false := rfl
@[simp] theorem State.softReset_busy (s : State) : s.softReset.busy = false := rfl
@[simp] theorem State.softReset_done (s : State) : s.softReset.done = false := rfl
@[simp] theorem State.softReset_err (s : State) : s.softReset.err = false := rfl
@[simp] theorem State.softReset_werr (s : State) : s.softReset.werr = false := rfl
@[simp] theorem State.softReset_cmdLast (s : State) : s.softReset.cmdLast = 0 := rfl
@[simp] theorem State.softReset_result (s : State) : s.softReset.result = 0 := rfl
@[simp] theorem State.softReset_errcode (s : State) : s.softReset.errcode = 0 := rfl
@[simp] theorem State.softReset_src (s : State) : s.softReset.src = 0 := rfl
@[simp] theorem State.softReset_len (s : State) : s.softReset.len = 0 := rfl
@[simp] theorem State.softReset_dst (s : State) : s.softReset.dst = 0 := rfl
@[simp] theorem State.softReset_gdeg (s : State) : s.softReset.gdeg = 0 := rfl
@[simp] theorem State.softReset_geom0 (s : State) : s.softReset.geom0 = 0 := rfl
@[simp] theorem State.softReset_geom1 (s : State) : s.softReset.geom1 = 0 := rfl
@[simp] theorem State.softReset_etot (s : State) : s.softReset.etot = 0 := rfl
@[simp] theorem State.softReset_gen (s : State) : s.softReset.gen = Vector.replicate 32 0 := rfl

/-- An abort either changes nothing or makes one range undefined (R185). -/
theorem State.abortLatched_cases (s : State) :
    s.abortLatched = s ∨ ∃ i start n, s.busy = true ∧ s.latched = .command i ∧ s.destinationOf i = some (start, n) ∧
      s.abortLatched = s.loseRange start n := by
  unfold State.abortLatched
  split
  · rename_i hb
    split
    · rename_i i hi
      split
      · rename_i start n hd
        exact .inr ⟨i, start, n, hb, hi, hd, rfl⟩
      · exact .inl rfl
    · exact .inl rfl
  · exact .inl rfl

/-! SOFT_RESET: the fields it leaves to the abort rule, or leaves alone (R158, R184). -/

@[simp] theorem State.softReset_mem (s : State) : s.softReset.mem = s.abortLatched.mem := rfl
@[simp] theorem State.softReset_capTable (s : State) : s.softReset.capTable = s.capTable := by
  rcases s.abortLatched_cases with h | ⟨_, _, _, _, _, _, h⟩ <;> simp [State.softReset, h]
@[simp] theorem State.softReset_faults (s : State) : s.softReset.faults = s.faults := by
  rcases s.abortLatched_cases with h | ⟨_, _, _, _, _, _, h⟩ <;> simp [State.softReset, h]
@[simp] theorem State.softReset_lostRanges (s : State) : s.softReset.lostRanges = s.abortLatched.lostRanges := rfl
@[simp] theorem State.softReset_hostProg (s : State) : s.softReset.hostProg = s.hostProg := by
  rcases s.abortLatched_cases with h | ⟨_, _, _, _, _, _, h⟩ <;> simp [State.softReset, h]
@[simp] theorem State.softReset_hostPc (s : State) : s.softReset.hostPc = s.hostPc := by
  rcases s.abortLatched_cases with h | ⟨_, _, _, _, _, _, h⟩ <;> simp [State.softReset, h]
@[simp] theorem State.softReset_hostTemps (s : State) : s.softReset.hostTemps = s.hostTemps := by
  rcases s.abortLatched_cases with h | ⟨_, _, _, _, _, _, h⟩ <;> simp [State.softReset, h]
@[simp] theorem State.softReset_hostStatus (s : State) : s.softReset.hostStatus = s.hostStatus := by
  rcases s.abortLatched_cases with h | ⟨_, _, _, _, _, _, h⟩ <;> simp [State.softReset, h]
@[simp] theorem State.softReset_hostResp (s : State) : s.softReset.hostResp = s.hostResp := by
  rcases s.abortLatched_cases with h | ⟨_, _, _, _, _, _, h⟩ <;> simp [State.softReset, h]
@[simp] theorem State.softReset_schedule (s : State) : s.softReset.schedule = s.schedule := by
  rcases s.abortLatched_cases with h | ⟨_, _, _, _, _, _, h⟩ <;> simp [State.softReset, h]

end Sys2Proof.Machine
end

