-- ==== Sys2Proof/Laws/Memory.lean ====
section
/-!
SUPPORT. Laws/Memory.lean: the laws of CWMEM: what a lookup gives after each memory operation, and that every memory
operation keeps the canonical form Mem.wf.
-/
namespace Sys2Proof.Machine

@[simp] theorem Mem.lookup_nil (a : Nat) : Mem.lookup [] a = none := rfl

theorem Mem.lookup_cons (c : Host.Cell) (m : Mem) (a : Nat) :
    Mem.lookup (c :: m) a = if c.1 = a then some c.2 else Mem.lookup m a := rfl

/-- A read after a write: the byte written, and every other byte as before. -/
theorem Mem.lookup_insert (m : Mem) (a b : Nat) (v : Byte) :
    (m.insert a v).lookup b = if b = a then some v else m.lookup b := by
  induction m with
  | nil => simp [Mem.insert, Mem.lookup_cons, eq_comm]
  | cons c m ih =>
    unfold Mem.insert
    split
    · simp only [Mem.lookup_cons, eq_comm (a := b)]
    · split
      · rename_i h1 h2
        subst h2
        by_cases h : b = c.1 <;> simp [Mem.lookup_cons, h, eq_comm]
      · rename_i h1 h2
        simp only [Mem.lookup_cons, ih]
        by_cases h : c.1 = b
        · have : b ≠ a := fun e => h2 (e ▸ h.symm)
          simp [h, this]
        · simp [h]

/-- A read after a write of several bytes. -/
theorem Mem.lookup_insertAll (vs : List Byte) (m : Mem) (a b : Nat) :
    (m.insertAll a vs).lookup b = if a ≤ b ∧ b < a + vs.length then vs[b - a]? else m.lookup b := by
  induction vs generalizing m a with
  | nil => exact (if_neg fun h => Nat.not_lt.mpr h.1 h.2).symm
  | cons v vs ih =>
    simp only [Mem.insertAll, ih, Mem.lookup_insert, List.length_cons]
    rcases Nat.lt_trichotomy b a with h | h | h
    · rw [if_neg (by omega), if_neg (by omega), if_neg (by omega)]
    · subst h
      rw [if_neg (by omega), if_pos rfl, if_pos (by omega)]
      simp
    · by_cases hb : b < a + 1 + vs.length
      · rw [if_pos (by omega), if_pos (by omega)]
        rw [show b - a = (b - (a + 1)) + 1 by omega, List.getElem?_cons_succ]
      · rw [if_neg (by omega), if_neg (by omega), if_neg (by omega)]

/-- A read after a range lost its value: nothing inside the range, and every other byte as before. -/
theorem Mem.lookup_eraseRange (m : Mem) (start n b : Nat) :
    (m.eraseRange start n).lookup b = if start ≤ b ∧ b < start + n then none else m.lookup b := by
  induction m with
  | nil => simp [Mem.eraseRange]
  | cons c m ih =>
    have step : Mem.eraseRange (c :: m) start n =
        if start ≤ c.1 ∧ c.1 < start + n then Mem.eraseRange m start n else c :: Mem.eraseRange m start n := by
      unfold Mem.eraseRange
      rw [List.filter_cons]
      by_cases h1 : start ≤ c.1 <;> by_cases h2 : c.1 < start + n <;> simp [h1, h2]
    rw [step]
    split
    · rename_i h
      rw [ih, Mem.lookup_cons]
      by_cases hb : c.1 = b
      · subst hb; simp [h]
      · simp [hb]
    · rename_i h
      rw [Mem.lookup_cons, Mem.lookup_cons, ih]
      by_cases hb : c.1 = b
      · subst hb; simp [h]
      · simp [hb]

/-- The entries after a write are the new one and old ones. -/
theorem Mem.mem_insert {m : Mem} {a : Nat} {v : Byte} {c : Host.Cell} (h : c ∈ m.insert a v) :
    c = (a, v) ∨ c ∈ m := by
  induction m with
  | nil => exact .inl (by simpa [Mem.insert] using h)
  | cons d m ih =>
    unfold Mem.insert at h
    split at h
    · simpa using h
    · split at h
      · rcases List.mem_cons.mp h with h | h
        · exact .inl h
        · exact .inr (List.mem_cons_of_mem _ h)
      · rcases List.mem_cons.mp h with h | h
        · exact .inr (h ▸ List.mem_cons_self)
        · rcases ih h with h | h
          · exact .inl h
          · exact .inr (List.mem_cons_of_mem _ h)

theorem Mem.wf_nil : Mem.wf [] := by simp [Mem.wf]

/-- A write inside CWMEM keeps the canonical form. -/
theorem Mem.wf_insert {m : Mem} (hm : m.wf) {a : Nat} (ha : a < Config.cwmemBytes) (v : Byte) :
    (m.insert a v).wf := by
  induction m with
  | nil => simp [Mem.insert, Mem.wf, ha]
  | cons c m ih =>
    obtain ⟨hp, hb⟩ := hm
    rw [List.pairwise_cons] at hp
    have hm' : Mem.wf m := ⟨hp.2, fun d hd => hb d (List.mem_cons_of_mem _ hd)⟩
    have hc := hb c List.mem_cons_self
    unfold Mem.insert
    split
    · rename_i h1
      refine ⟨List.pairwise_cons.mpr ⟨fun d hd => ?_, List.pairwise_cons.mpr hp⟩, fun d hd => ?_⟩
      · rcases List.mem_cons.mp hd with rfl | hd
        · exact h1
        · exact Nat.lt_trans h1 (hp.1 d hd)
      · rcases List.mem_cons.mp hd with rfl | hd
        · exact ha
        · exact hb d hd
    · split
      · rename_i h1 h2
        refine ⟨List.pairwise_cons.mpr ⟨fun d hd => h2 ▸ hp.1 d hd, hp.2⟩, fun d hd => ?_⟩
        rcases List.mem_cons.mp hd with rfl | hd
        · exact ha
        · exact hm'.2 d hd
      · rename_i h1 h2
        refine ⟨List.pairwise_cons.mpr ⟨fun d hd => ?_, (ih hm').1⟩, fun d hd => ?_⟩
        · rcases Mem.mem_insert hd with rfl | hd
          · exact Nat.lt_of_le_of_ne (Nat.le_of_not_lt h1) (Ne.symm h2)
          · exact hp.1 d hd
        · rcases List.mem_cons.mp hd with rfl | hd
          · exact hc
          · exact (ih hm').2 d hd

/-- Writing bytes that all lie inside CWMEM keeps the canonical form. -/
theorem Mem.wf_insertAll (vs : List Byte) {m : Mem} (hm : m.wf) {a : Nat}
    (ha : a + vs.length ≤ Config.cwmemBytes) : (m.insertAll a vs).wf := by
  induction vs generalizing m a with
  | nil => exact hm
  | cons v vs ih =>
    rw [List.length_cons] at ha
    exact ih (Mem.wf_insert hm (by omega) v) (by omega)

/-- Losing a range keeps the canonical form. -/
theorem Mem.wf_eraseRange {m : Mem} (hm : m.wf) (start n : Nat) : (m.eraseRange start n).wf :=
  ⟨hm.1.filter _, fun c hc => hm.2 c (List.mem_filter.mp hc).1⟩

/-- The memory of the reset state has the canonical form. -/
theorem State.reset_mem_wf : State.reset.mem.wf := Mem.wf_nil

/-- An abort keeps the canonical form. -/
theorem State.abortLatched_mem_wf {s : State} (h : s.mem.wf) : s.abortLatched.mem.wf := by
  rcases s.abortLatched_cases with e | ⟨_, start, n, _, _, _, e⟩
  · rw [e]; exact h
  · rw [e]; exact Mem.wf_eraseRange h start n

/-- CW[a] where a has been written. -/
theorem State.cw_of_lookup {s : State} {a : Nat} {b : Byte} (h : s.mem.lookup a = some b) : s.cw a = b := by
  simp [State.cw, h]

@[simp] theorem State.length_cwRange (s : State) (start k : Nat) : (s.cwRange start k).length = k := by
  simp [State.cwRange]

/-- The k bytes read from start. -/
theorem State.cwRange_getElem? (s : State) (start k i : Nat) :
    (s.cwRange start k)[i]? = if i < k then some (s.cw (start + i)) else none := by
  by_cases h : i < k <;> simp [State.cwRange, h]

/-- A fault is in the set after it is added, and nothing else is new. -/
theorem mem_addFault {fs : List Fault} {f g : Fault} : g ∈ addFault fs f ↔ g ∈ fs ∨ g = f := by
  unfold addFault
  split
  · rename_i h
    exact ⟨.inl, fun hg => hg.elim id (fun e => e ▸ h)⟩
  · simp

/-- Adding a fault keeps the set free of repeats. -/
theorem nodup_addFault {fs : List Fault} (h : fs.Nodup) (f : Fault) : (addFault fs f).Nodup := by
  unfold addFault
  split
  · exact h
  · rename_i hf
    exact List.nodup_append.mpr ⟨h, by simp, fun a ha b hb e => hf (List.mem_singleton.mp hb ▸ e ▸ ha)⟩

/-- The faults after a range was read: the old ones, and UninitRead for each undefined byte of the range. -/
theorem State.mem_recordUninit_faults (s : State) (start k : Nat) (f : Fault) :
    f ∈ (s.recordUninit start k).faults ↔
      f ∈ s.faults ∨ ∃ a, start ≤ a ∧ a < start + k ∧ s.mem.lookup a = none ∧ f = .uninitRead a := by
  have key : ∀ (as : List Nat) (fs : List Fault),
      f ∈ as.foldl (fun fs a => addFault fs (.uninitRead a)) fs ↔ f ∈ fs ∨ ∃ a ∈ as, f = .uninitRead a := by
    intro as
    induction as with
    | nil => simp
    | cons a as ih => intro fs; simp [ih, mem_addFault, or_assoc]
  simp only [State.recordUninit, key, State.undefinedIn, List.mem_filter, List.mem_range'_1, Option.isNone_iff_eq_none]
  constructor
  · rintro (h | ⟨a, ⟨⟨h1, h2⟩, h3⟩, h4⟩)
    · exact .inl h
    · exact .inr ⟨a, h1, h2, h3, h4⟩
  · rintro (h | ⟨a, h1, h2, h3, h4⟩)
    · exact .inl h
    · exact .inr ⟨a, ⟨⟨h1, h2⟩, h3⟩, h4⟩

/-- Recording keeps the set free of repeats. -/
theorem State.nodup_recordUninit {s : State} (h : s.faults.Nodup) (start k : Nat) :
    (s.recordUninit start k).faults.Nodup := by
  have key : ∀ (as : List Nat) (fs : List Fault), fs.Nodup →
      (as.foldl (fun fs a => addFault fs (.uninitRead a)) fs).Nodup := by
    intro as
    induction as with
    | nil => exact fun _ h => h
    | cons a as ih => exact fun fs h => ih _ (nodup_addFault h _)
  exact key _ _ h

end Sys2Proof.Machine
end

