-- ==== Sys2Proof/Laws/Operations.lean ====
section
/-!
SUPPORT. Laws/Operations.lean: for each shared operation, once, everything it can do: the targets of a host access, what
a bus read, a bus write and a host turn leave, what a command leaves, and the lengths of the coefficient lists.
-/
namespace Sys2Proof.Machine

/-! ## Lengths -/

@[simp] theorem length_mulLinear (c prev : Byte) (gs : List Byte) : (mulLinear c prev gs).length = gs.length + 1 := by
  induction gs generalizing prev with
  | nil => rfl
  | cons g gs ih => simp [mulLinear, ih]

@[simp] theorem length_genPoly (n : Nat) : (genPoly n).length = n + 1 := by
  induction n with
  | zero => rfl
  | succ n ih => simp [genPoly, ih]

/-- The division step keeps the register as long as the generator's low part. -/
theorem length_remStep (g r : List Byte) (d : Byte) (hr : r.length = g.length) (hg : 0 < g.length) :
    (remStep g r d).length = g.length := by
  simp [remStep]; omega

/-- A block has n EC codewords (R127). -/
@[simp] theorem length_rsRem (ds : List Byte) (n : Nat) : (rsRem ds n).length = n := by
  have hg : ((genPoly n).take n).length = n := by simp
  cases n with
  | zero =>
    have : ∀ r : List Byte, (ds.foldl (remStep ((genPoly 0).take 0)) r).length ≤ r.length := by
      induction ds with
      | nil => intro r; exact Nat.le_refl _
      | cons d ds ih => intro r; refine Nat.le_trans (ih _) ?_; simp [remStep]
    simpa [rsRem] using this []
  | succ n =>
    have key : ∀ r : List Byte, r.length = n + 1 →
        (ds.foldl (remStep ((genPoly (n + 1)).take (n + 1))) r).length = n + 1 := by
      induction ds with
      | nil => exact fun r hr => hr
      | cons d ds ih =>
        intro r hr
        exact ih _ ((length_remStep _ r d (by rw [hr, hg]) (by rw [hg]; omega)).trans hg)
    simpa [rsRem] using key (List.replicate (n + 1) 0) (by simp)

/-- The EC area of consecutive blocks has n codewords for each (R143). -/
@[simp] theorem length_encodeBlocks (n : Nat) (ks : List Nat) (ds : List Byte) :
    (encodeBlocks n ks ds).length = ks.length * n := by
  induction ks generalizing ds with
  | nil => simp [encodeBlocks]
  | cons k ks ih => simp [encodeBlocks, ih, Nat.add_mul]; omega

@[simp] theorem length_blockLengths (r : CapRow) : (blockLengths r).length = r.nblk := by
  simp [blockLengths, CapRow.nblk]

/-! ## Commands -/

/-- An RS_BLOCK that passes its checks: the degree, the ranges, and no shared byte (R132). -/
theorem State.blockError_none {s : State} {n : Byte} : s.blockError n = none ↔
    1 ≤ n.toNat ∧ n.toNat ≤ 30 ∧ s.src.toNat + s.len.toNat ≤ 4096 ∧ s.dst.toNat + n.toNat ≤ 4096 ∧
      (s.len.toNat = 0 ∨ s.src.toNat + s.len.toNat ≤ s.dst.toNat ∨ s.dst.toNat + n.toNat ≤ s.src.toNat) := by
  unfold State.blockError degreeError State.rangeError Config.nmax Config.cwmemBytes
  split
  · rename_i h; split at h <;> simp_all; omega
  · rename_i h; split at h <;> simp_all
    split <;> rename_i h2
    · simp; omega
    · split <;> simp <;> omega

/-- An RS_ENCODE row that passes its checks (R139). -/
theorem State.rowError_none {s : State} {r : CapRow} : s.rowError r = none ↔
    r.valid = true ∧ s.len.toNat = r.ktot ∧ s.src.toNat + r.ktot ≤ 4096 ∧ s.dst.toNat + r.etot ≤ 4096 ∧
      (r.ktot = 0 ∨ s.src.toNat + r.ktot ≤ s.dst.toNat ∨ s.dst.toNat + r.etot ≤ s.src.toNat) := by
  unfold State.rowError State.rangeError Config.cwmemBytes
  split
  · simp_all
  · split
    · simp_all
    · split <;> rename_i h2
      · simp; omega
      · split <;> simp_all <;> omega

/-- The arithmetic of a valid row (R41). -/
theorem CapRow.valid_iff (r : CapRow) : r.valid = true ↔
    1 ≤ r.g1c.toNat ∧ 1 ≤ r.g1k.toNat ∧ 1 ≤ r.nec.toNat ∧ r.nec.toNat ≤ 30 ∧
      (r.g2c = 0 ∨ r.g1k.toNat < r.g2k.toNat) ∧ r.nblk ≤ 255 ∧ r.ktot ≤ 4096 ∧ r.etot ≤ 4096 := by
  simp only [CapRow.valid, Bool.and_eq_true, Bool.or_eq_true, decide_eq_true_eq, and_assoc]
  rfl

/-- The state a successful RS_BLOCK leaves, field by field (R132, R142). -/
theorem State.commitBlock_eq (s : State) (n : Nat) : s.commitBlock n = { s with
    busy := false, done := true, errcode := 0,
    mem := s.mem.insertAll s.dst.toNat (rsRem (s.cwRange s.src.toNat s.len.toNat) n),
    faults := (s.recordUninit s.src.toNat s.len.toNat).faults,
    gen := genRegisters n, gdeg := BitVec.ofNat 6 n } := by
  simp only [State.commitBlock, State.complete, State.endCommand, State.setGenerator, State.writeCw,
    State.recordUninit]

/-- The state a successful RS_ENCODE leaves, field by field (R139, R142). -/
theorem State.commitEncode_eq (s : State) (r : CapRow) : s.commitEncode r = { s with
    busy := false, done := true, errcode := 0,
    mem := s.mem.insertAll s.dst.toNat
      (encodeBlocks r.nec.toNat (blockLengths r) (s.cwRange s.src.toNat r.ktot)),
    faults := (s.recordUninit s.src.toNat r.ktot).faults,
    gen := genRegisters r.nec.toNat, gdeg := BitVec.ofNat 6 r.nec.toNat,
    geom0 := r.g2k ++ r.g2c ++ r.g1k ++ r.g1c,
    geom1 := BitVec.ofNat 13 r.ktot ++ BitVec.ofNat 8 r.nblk ++ r.nec,
    etot := BitVec.ofNat 13 r.etot } := by
  simp only [State.commitEncode, State.complete, State.endCommand, State.setGeometry, State.setGenerator,
    State.writeCw, State.recordUninit]

/-! What a successful RS_BLOCK and RS_ENCODE do to each field (R142, R161). -/

@[simp] theorem State.commitBlock_ie (s : State) (n : Nat) : (s.commitBlock n).ie = s.ie := by rw [State.commitBlock_eq]
@[simp] theorem State.commitBlock_busy (s : State) (n : Nat) : (s.commitBlock n).busy = false := by rw [State.commitBlock_eq]
@[simp] theorem State.commitBlock_done (s : State) (n : Nat) : (s.commitBlock n).done = true := by rw [State.commitBlock_eq]
@[simp] theorem State.commitBlock_err (s : State) (n : Nat) : (s.commitBlock n).err = s.err := by rw [State.commitBlock_eq]
@[simp] theorem State.commitBlock_werr (s : State) (n : Nat) : (s.commitBlock n).werr = s.werr := by rw [State.commitBlock_eq]
@[simp] theorem State.commitBlock_cmdLast (s : State) (n : Nat) : (s.commitBlock n).cmdLast = s.cmdLast := by rw [State.commitBlock_eq]
@[simp] theorem State.commitBlock_result (s : State) (n : Nat) : (s.commitBlock n).result = s.result := by rw [State.commitBlock_eq]
@[simp] theorem State.commitBlock_errcode (s : State) (n : Nat) : (s.commitBlock n).errcode = 0 := by rw [State.commitBlock_eq]
@[simp] theorem State.commitBlock_src (s : State) (n : Nat) : (s.commitBlock n).src = s.src := by rw [State.commitBlock_eq]
@[simp] theorem State.commitBlock_len (s : State) (n : Nat) : (s.commitBlock n).len = s.len := by rw [State.commitBlock_eq]
@[simp] theorem State.commitBlock_dst (s : State) (n : Nat) : (s.commitBlock n).dst = s.dst := by rw [State.commitBlock_eq]
@[simp] theorem State.commitBlock_gdeg (s : State) (n : Nat) : (s.commitBlock n).gdeg = BitVec.ofNat 6 n := by rw [State.commitBlock_eq]
@[simp] theorem State.commitBlock_geom0 (s : State) (n : Nat) : (s.commitBlock n).geom0 = s.geom0 := by rw [State.commitBlock_eq]
@[simp] theorem State.commitBlock_geom1 (s : State) (n : Nat) : (s.commitBlock n).geom1 = s.geom1 := by rw [State.commitBlock_eq]
@[simp] theorem State.commitBlock_etot (s : State) (n : Nat) : (s.commitBlock n).etot = s.etot := by rw [State.commitBlock_eq]
@[simp] theorem State.commitBlock_gen (s : State) (n : Nat) : (s.commitBlock n).gen = genRegisters n := by rw [State.commitBlock_eq]
@[simp] theorem State.commitBlock_mem (s : State) (n : Nat) : (s.commitBlock n).mem = s.mem.insertAll s.dst.toNat (rsRem (s.cwRange s.src.toNat s.len.toNat) n) := by rw [State.commitBlock_eq]
@[simp] theorem State.commitBlock_capTable (s : State) (n : Nat) : (s.commitBlock n).capTable = s.capTable := by rw [State.commitBlock_eq]
@[simp] theorem State.commitBlock_faults (s : State) (n : Nat) : (s.commitBlock n).faults = (s.recordUninit s.src.toNat s.len.toNat).faults := by rw [State.commitBlock_eq]
@[simp] theorem State.commitBlock_lostRanges (s : State) (n : Nat) : (s.commitBlock n).lostRanges = s.lostRanges := by rw [State.commitBlock_eq]
@[simp] theorem State.commitBlock_hostProg (s : State) (n : Nat) : (s.commitBlock n).hostProg = s.hostProg := by rw [State.commitBlock_eq]
@[simp] theorem State.commitBlock_hostPc (s : State) (n : Nat) : (s.commitBlock n).hostPc = s.hostPc := by rw [State.commitBlock_eq]
@[simp] theorem State.commitBlock_hostTemps (s : State) (n : Nat) : (s.commitBlock n).hostTemps = s.hostTemps := by rw [State.commitBlock_eq]
@[simp] theorem State.commitBlock_hostStatus (s : State) (n : Nat) : (s.commitBlock n).hostStatus = s.hostStatus := by rw [State.commitBlock_eq]
@[simp] theorem State.commitBlock_hostResp (s : State) (n : Nat) : (s.commitBlock n).hostResp = s.hostResp := by rw [State.commitBlock_eq]
@[simp] theorem State.commitBlock_schedule (s : State) (n : Nat) : (s.commitBlock n).schedule = s.schedule := by rw [State.commitBlock_eq]

@[simp] theorem State.commitEncode_ie (s : State) (r : CapRow) : (s.commitEncode r).ie = s.ie := by rw [State.commitEncode_eq]
@[simp] theorem State.commitEncode_busy (s : State) (r : CapRow) : (s.commitEncode r).busy = false := by rw [State.commitEncode_eq]
@[simp] theorem State.commitEncode_done (s : State) (r : CapRow) : (s.commitEncode r).done = true := by rw [State.commitEncode_eq]
@[simp] theorem State.commitEncode_err (s : State) (r : CapRow) : (s.commitEncode r).err = s.err := by rw [State.commitEncode_eq]
@[simp] theorem State.commitEncode_werr (s : State) (r : CapRow) : (s.commitEncode r).werr = s.werr := by rw [State.commitEncode_eq]
@[simp] theorem State.commitEncode_cmdLast (s : State) (r : CapRow) : (s.commitEncode r).cmdLast = s.cmdLast := by rw [State.commitEncode_eq]
@[simp] theorem State.commitEncode_result (s : State) (r : CapRow) : (s.commitEncode r).result = s.result := by rw [State.commitEncode_eq]
@[simp] theorem State.commitEncode_errcode (s : State) (r : CapRow) : (s.commitEncode r).errcode = 0 := by rw [State.commitEncode_eq]
@[simp] theorem State.commitEncode_src (s : State) (r : CapRow) : (s.commitEncode r).src = s.src := by rw [State.commitEncode_eq]
@[simp] theorem State.commitEncode_len (s : State) (r : CapRow) : (s.commitEncode r).len = s.len := by rw [State.commitEncode_eq]
@[simp] theorem State.commitEncode_dst (s : State) (r : CapRow) : (s.commitEncode r).dst = s.dst := by rw [State.commitEncode_eq]
@[simp] theorem State.commitEncode_gdeg (s : State) (r : CapRow) : (s.commitEncode r).gdeg = BitVec.ofNat 6 r.nec.toNat := by rw [State.commitEncode_eq]
@[simp] theorem State.commitEncode_geom0 (s : State) (r : CapRow) : (s.commitEncode r).geom0 = r.g2k ++ r.g2c ++ r.g1k ++ r.g1c := by rw [State.commitEncode_eq]
@[simp] theorem State.commitEncode_geom1 (s : State) (r : CapRow) : (s.commitEncode r).geom1 = BitVec.ofNat 13 r.ktot ++ BitVec.ofNat 8 r.nblk ++ r.nec := by rw [State.commitEncode_eq]
@[simp] theorem State.commitEncode_etot (s : State) (r : CapRow) : (s.commitEncode r).etot = BitVec.ofNat 13 r.etot := by rw [State.commitEncode_eq]
@[simp] theorem State.commitEncode_gen (s : State) (r : CapRow) : (s.commitEncode r).gen = genRegisters r.nec.toNat := by rw [State.commitEncode_eq]
@[simp] theorem State.commitEncode_mem (s : State) (r : CapRow) : (s.commitEncode r).mem = s.mem.insertAll s.dst.toNat
    (encodeBlocks r.nec.toNat (blockLengths r) (s.cwRange s.src.toNat r.ktot)) := by rw [State.commitEncode_eq]
@[simp] theorem State.commitEncode_capTable (s : State) (r : CapRow) : (s.commitEncode r).capTable = s.capTable := by rw [State.commitEncode_eq]
@[simp] theorem State.commitEncode_faults (s : State) (r : CapRow) : (s.commitEncode r).faults = (s.recordUninit s.src.toNat r.ktot).faults := by rw [State.commitEncode_eq]
@[simp] theorem State.commitEncode_lostRanges (s : State) (r : CapRow) : (s.commitEncode r).lostRanges = s.lostRanges := by rw [State.commitEncode_eq]
@[simp] theorem State.commitEncode_hostProg (s : State) (r : CapRow) : (s.commitEncode r).hostProg = s.hostProg := by rw [State.commitEncode_eq]
@[simp] theorem State.commitEncode_hostPc (s : State) (r : CapRow) : (s.commitEncode r).hostPc = s.hostPc := by rw [State.commitEncode_eq]
@[simp] theorem State.commitEncode_hostTemps (s : State) (r : CapRow) : (s.commitEncode r).hostTemps = s.hostTemps := by rw [State.commitEncode_eq]
@[simp] theorem State.commitEncode_hostStatus (s : State) (r : CapRow) : (s.commitEncode r).hostStatus = s.hostStatus := by rw [State.commitEncode_eq]
@[simp] theorem State.commitEncode_hostResp (s : State) (r : CapRow) : (s.commitEncode r).hostResp = s.hostResp := by rw [State.commitEncode_eq]
@[simp] theorem State.commitEncode_schedule (s : State) (r : CapRow) : (s.commitEncode r).schedule = s.schedule := by rw [State.commitEncode_eq]

/-- GEN[j] for degree n (R38). -/
@[simp] theorem genRegisters_get (n : Nat) (j : Fin 32) :
    (genRegisters n).get j = if j.val ≤ n then (genPoly n).getD j.val 0 else 0 := by
  show (genRegisters n)[j.val] = _
  rw [genRegisters, Vector.getElem_ofFn]

/-- Every command answers a next state: what it commits, or its error. -/
theorem exec_next (i : Instr) (s : State) : ∃ t, exec i s = .next t := by
  cases i <;> exact ⟨_, rfl⟩

/-- The two ways RS_BLOCK ends (R161, R162). -/
theorem execRsBlock_cases (n : Byte) (s : State) :
    (∃ c, s.blockError n = some c ∧ execRsBlock n s = .next (s.raiseError c)) ∨
      (s.blockError n = none ∧ execRsBlock n s = .next (s.commitBlock n.toNat)) := by
  unfold execRsBlock
  cases h : s.blockError n with
  | some c => exact .inl ⟨c, rfl, rfl⟩
  | none => exact .inr ⟨rfl, rfl⟩

/-- A version in 1..40 selects entry v - 1 of CAPTABLE, and the EC level the row in it (R41, R135). -/
theorem State.capRow_of_entry {s : State} {v : Byte} {rows : CapRows} (h : 1 ≤ v.toNat)
    (hr : s.capTable[v.toNat - 1]? = some rows) (e : EcLevel) : s.capRow v e = some (rows.row e) := by
  obtain ⟨hlt, rfl⟩ := Vector.getElem?_eq_some_iff.mp hr
  exact dif_pos ⟨h, by omega⟩

/-- A version has no row exactly when it is 0 or over 40 (R41). -/
theorem State.capRow_eq_none {s : State} {v : Byte} {e : EcLevel} :
    s.capRow v e = none ↔ v.toNat = 0 ∨ 40 < v.toNat := by
  unfold State.capRow
  split <;> simp <;> omega

/-- The three ways RS_ENCODE ends (R139). -/
theorem execRsEncode_cases (v : Byte) (e : EcLevel) (s : State) :
    (s.capRow v e = none ∧ execRsEncode v e s = .next (s.raiseError .invalidVersion)) ∨
      (∃ r c, s.capRow v e = some r ∧ s.rowError r = some c ∧ execRsEncode v e s = .next (s.raiseError c)) ∨
      (∃ r, s.capRow v e = some r ∧ s.rowError r = none ∧ execRsEncode v e s = .next (s.commitEncode r)) := by
  unfold execRsEncode
  cases h : s.capRow v e with
  | none => exact .inl ⟨rfl, rfl⟩
  | some r =>
    cases h2 : s.rowError r with
    | some c => exact .inr (.inl ⟨r, c, rfl, h2, by simp [h2]⟩)
    | none => exact .inr (.inr ⟨r, rfl, h2, by simp [h2]⟩)

/-- The engine's turn: nothing without a command, else the latched command or ILLEGAL_CMD (R159, R160). -/
theorem engineStep_cases (s : State) :
    (s.busy = false ∧ engineStep s = .next s) ∨
      (s.busy = true ∧ ∃ i, decode s.cmdLast = .command i ∧ engineStep s = exec i s) ∨
      (s.busy = true ∧ ∃ why, decode s.cmdLast = .illegal why ∧
        engineStep s = .next (s.raiseError .illegalCmd)) := by
  unfold engineStep State.latched
  cases hb : s.busy with
  | false => exact .inl ⟨rfl, rfl⟩
  | true =>
    cases hd : decode s.cmdLast with
    | command i => exact .inr (.inl ⟨rfl, i, rfl, rfl⟩)
    | illegal why => exact .inr (.inr ⟨rfl, why, rfl, rfl⟩)

/-! ## Host accesses -/

/-- A register access is an aligned 32-bit access below 0x1000 (R59). -/
theorem accessTarget_reg {off : Offset} {w : AccessWidth} {r : DevReg} (h : accessTarget off w = some (.reg r)) :
    off.toNat < 0x1000 ∧ w = .b32 ∧ off.toNat % 4 = 0 ∧ regAt off.toNat = some r := by
  unfold accessTarget at h
  split at h
  · split at h
    · rename_i h1 h2
      cases hr : regAt off.toNat with
      | none => simp [hr] at h
      | some q => simp [hr] at h; exact ⟨h1, h2.1, h2.2, by rw [h]⟩
    · simp at h
  · split at h
    · simp at h
    · split at h <;> simp at h
    · simp at h
    · simp at h

/-- A byte access is an 8-bit one in the window (R60). -/
theorem accessTarget_byte {off : Offset} {w : AccessWidth} {a : Nat} (h : accessTarget off w = some (.byte a)) :
    off.toNat = 0x1000 + a ∧ w = .b8 ∧ a < 4096 := by
  have hlt := off.isLt
  unfold accessTarget at h
  split at h
  · split at h
    · split at h <;> simp at h
    · simp at h
  · split at h
    · simp at h; exact ⟨by omega, rfl, by omega⟩
    · split at h <;> simp at h
    · simp at h
    · simp at h

/-- A word access is an aligned 32-bit one in the window, all four bytes inside CWMEM (R60). -/
theorem accessTarget_word {off : Offset} {w : AccessWidth} {a : Nat} (h : accessTarget off w = some (.word a)) :
    off.toNat = 0x1000 + a ∧ w = .b32 ∧ a % 4 = 0 ∧ a + 4 ≤ 4096 := by
  have hlt := off.isLt
  unfold accessTarget at h
  split at h
  · split at h
    · split at h <;> simp at h
    · simp at h
  · split at h
    · simp at h
    · split at h
      · simp at h; exact ⟨by omega, rfl, by omega, by omega⟩
      · simp at h
    · simp at h
    · simp at h

/-- What a read leaves: the state itself, WERR with an ERROR, or a recorded model fault (R62, R69). -/
theorem State.busRead_state (s : State) (off : Offset) (w : AccessWidth) :
    (s.busRead off w = s.busError) ∨
      ((s.busRead off w).resp = .okay ∧
        ((s.busRead off w).state = s ∨ (s.busRead off w).state = s.recordReserved off ∨
          ∃ a k, (s.busRead off w).state = s.recordUninit a k)) := by
  unfold State.busRead
  split
  · exact .inl rfl
  · exact .inr ⟨rfl, .inl rfl⟩
  · exact .inr ⟨rfl, .inr (.inl rfl)⟩
  · split
    · exact .inl rfl
    · exact .inr ⟨rfl, .inr (.inr ⟨_, _, rfl⟩)⟩
  · split
    · exact .inl rfl
    · exact .inr ⟨rfl, .inr (.inr ⟨_, _, rfl⟩)⟩

/-- What a write leaves: WERR with an ERROR, a register's effect, a recorded model fault, or bytes inside CWMEM written
while no command runs (R62, R67, R69). -/
theorem State.busWrite_cases (s : State) (off : Offset) (w : AccessWidth) (v : Word) :
    (s.busWrite off w v = s.busError) ∨
      (∃ r, accessTarget off w = some (.reg r) ∧ (s.busy && r.closedWhileBusy) = false ∧
        s.busWrite off w v = ⟨.okay, 0, s.writeReg r v⟩) ∨
      (s.busWrite off w v = ⟨.okay, 0, s.recordReserved off⟩) ∨
      (s.busy = false ∧ 0x1000 ≤ off.toNat ∧ ∃ a vs, a + vs.length ≤ 4096 ∧
        s.busWrite off w v = ⟨.okay, 0, s.writeCw a vs⟩) := by
  unfold State.busWrite
  split
  · exact .inl rfl
  · rename_i r hr
    cases hb : s.busy && r.closedWhileBusy with
    | true => exact .inl rfl
    | false => exact .inr (.inl ⟨r, hr, hb, rfl⟩)
  · exact .inr (.inr (.inl rfl))
  · rename_i a ha
    have := accessTarget_byte ha
    cases hb : s.busy with
    | true => exact .inl rfl
    | false => exact .inr (.inr (.inr ⟨rfl, by omega, a, [v.extractLsb' 0 8], by simp; omega, rfl⟩))
  · rename_i a ha
    have := accessTarget_word ha
    cases hb : s.busy with
    | true => exact .inl rfl
    | false => exact .inr (.inr (.inr ⟨rfl, by omega, a, wordBytes v, by simp [wordBytes]; omega, rfl⟩))

/-- Whose turn is next plays no part in a host read. -/
theorem State.busRead_takeTurn (s : State) (off : Offset) (w : AccessWidth) :
    s.takeTurn.busRead off w = { s.busRead off w with state := (s.busRead off w).state.takeTurn } := by
  have hr (r : DevReg) : s.takeTurn.readReg r = s.readReg r := by cases r <;> rfl
  have hb : s.takeTurn.busy = s.busy := rfl
  unfold State.busRead
  cases accessTarget off w with
  | none => rfl
  | some t =>
    cases t with
    | reg r => simp only [hr]
    | reserved => rfl
    | byte a => cases h : s.busy <;> simp only [hb, h] <;> rfl
    | word a => cases h : s.busy <;> simp only [hb, h] <;> rfl

/-- Whose turn is next plays no part in an abort. -/
theorem State.abortLatched_takeTurn (s : State) : s.takeTurn.abortLatched = s.abortLatched.takeTurn := by
  have hd (i : Instr) : s.takeTurn.destinationOf i = s.destinationOf i := by cases i <;> rfl
  have hb : s.takeTurn.busy = s.busy := rfl
  have hl : s.takeTurn.latched = s.latched := rfl
  unfold State.abortLatched
  rw [hb, hl]
  cases s.busy with
  | false => rfl
  | true =>
    cases s.latched with
    | illegal why => rfl
    | command i =>
      simp only [hd]
      cases s.destinationOf i <;> rfl

/-- Whose turn is next plays no part in a host write. -/
theorem State.busWrite_takeTurn (s : State) (off : Offset) (w : AccessWidth) (v : Word) :
    s.takeTurn.busWrite off w v = { s.busWrite off w v with state := (s.busWrite off w v).state.takeTurn } := by
  have hr (r : DevReg) : s.takeTurn.writeReg r v = (s.writeReg r v).takeTurn := by
    cases r <;> try rfl
    change s.takeTurn.writeCtrl v = (s.writeCtrl v).takeTurn
    unfold State.writeCtrl
    split
    · unfold State.softReset
      rw [State.abortLatched_takeTurn]
      rfl
    · rfl
  have hb : s.takeTurn.busy = s.busy := rfl
  unfold State.busWrite
  cases accessTarget off w with
  | none => rfl
  | some t =>
    cases t with
    | reg r => simp only [hb, hr]; split <;> rfl
    | reserved => rfl
    | byte a => cases h : s.busy <;> simp only [hb, h] <;> rfl
    | word a => cases h : s.busy <;> simp only [hb, h] <;> rfl

/-- A temporary after it is written, and every other one. -/
theorem tempValue_setTemp (ts : List Word) (t k : Nat) (v : Word) :
    tempValue (setTemp ts t v) k = if k = t then v else tempValue ts k := by
  induction ts generalizing t k with
  | nil =>
    induction t generalizing k with
    | zero => cases k <;> simp [setTemp, tempValue]
    | succ t ih =>
      cases k with
      | zero => simp [setTemp, tempValue]
      | succ k => simpa [setTemp, tempValue] using ih k
  | cons x ts ih =>
    cases t with
    | zero => cases k <;> simp [setTemp, tempValue]
    | succ t =>
      cases k with
      | zero => simp [setTemp, tempValue]
      | succ k => simpa [setTemp, tempValue] using ih t k

/-- A step is the turn of one agent, that turn being used up (R163). -/
theorem step_cases {s t : State} (h : step s = .next t) :
    (s.turn = .engine ∧ engineStep s.takeTurn = .next t) ∨ (s.turn = .host ∧ s.takeTurn.hostStep = t) := by
  unfold step at h
  cases ht : s.turn with
  | engine => rw [ht] at h; exact .inl ⟨rfl, h⟩
  | host => rw [ht] at h; simp at h; exact .inr ⟨rfl, h⟩

end Sys2Proof.Machine
end

