-- ==== Sys2Proof/Laws/PerInstr.lean ====
section
/-!
SUPPORT. Laws/PerInstr.lean: what holds of every command as syntax. Family OpField: the word of each command has its OP in
bits [3:0] and 0 in the reserved fields RSV0 and RSV1 (30_encoding.md R81, R84).
-/
namespace Sys2Proof.Laws

/-- The OP value of a command (R84). -/
def opOf : Instr → Byte
  | .gfAdd _ _ => 0x1
  | .gfMul _ _ => 0x2
  | .gfDiv _ _ => 0x3
  | .gfExp _ => 0x4
  | .gfLog _ => 0x5
  | .genPoly _ => 0x6
  | .rsBlock _ => 0x7
  | .rsEncode _ _ => 0x8

/-- Bits [7:0] of the command's word are RSV0 = 0 and OP, and bits [31:24] are RSV1 = 0. -/
def OpField.Statement (i : Instr) : Prop :=
  (encode i).extractLsb' 0 8 = opOf i ∧ (encode i).extractLsb' 24 8 = 0

/-- The low and the high byte of a packed word. -/
theorem packWord_ends (b a o : Byte) :
    (packWord b a o).extractLsb' 0 8 = o ∧ (packWord b a o).extractLsb' 24 8 = 0 := by
  have h := word_eq_bytes (packWord b a o)
  unfold packWord at h ⊢
  rw [append_eq_append_iff, append_eq_append_iff, append_eq_append_iff] at h
  exact ⟨h.2.symm, h.1.1.1.symm⟩

theorem OpField.gfAdd (a b : Byte) : OpField.Statement (.gfAdd a b) := packWord_ends _ _ _
theorem OpField.gfMul (a b : Byte) : OpField.Statement (.gfMul a b) := packWord_ends _ _ _
theorem OpField.gfDiv (a b : Byte) : OpField.Statement (.gfDiv a b) := packWord_ends _ _ _
theorem OpField.gfExp (a : Byte) : OpField.Statement (.gfExp a) := packWord_ends _ _ _
theorem OpField.gfLog (a : Byte) : OpField.Statement (.gfLog a) := packWord_ends _ _ _
theorem OpField.genPoly (n : Byte) : OpField.Statement (.genPoly n) := packWord_ends _ _ _
theorem OpField.rsBlock (n : Byte) : OpField.Statement (.rsBlock n) := packWord_ends _ _ _
theorem OpField.rsEncode (v : Byte) (e : EcLevel) : OpField.Statement (.rsEncode v e) := packWord_ends _ _ _

end Sys2Proof.Laws
end

