-- ==== Sys2Proof/Tests/Slice0.lean ====
section
/-!
SUPPORT. Tests/Slice0.lean: the model's own tests. Expected values are those of spec/95_test_vectors.md (V<n>) and of the
rules named; then, for every statement with hypotheses, a state and operands that meet them (test_witness_<statement>).
-/
namespace Sys2Proof.Tests
open Sys2Proof Sys2Proof.Machine

/-! ## Well-formedness: an ill-formed term for each check -/

/-- Each clause of the legality predicate refuses a word (V8.1 to V8.6 and the formats of R85 to R87). -/
theorem test_legalWord_refuses :
    legalWord 0x00000011 = false ∧ legalWord 0x01000001 = false ∧ legalWord 0x00010104 = false ∧
    legalWord 0x00010005 = false ∧ legalWord 0x00800006 = false ∧ legalWord 0x00010107 = false ∧
    legalWord 0x00040108 = false ∧ legalWord 0x00000000 = false ∧ legalWord 0x00000009 = false ∧
    legalWord 0x0000000F = false := by decide

/-- An operand of 256 is an assembly error in every line (R93). -/
theorem test_asm_refuses :
    (AsmLine.gfAdd 256 0).wellFormed = false ∧ (AsmLine.gfAdd 0 256).wellFormed = false ∧
    (AsmLine.gfMul 256 0).wellFormed = false ∧ (AsmLine.gfMul 0 256).wellFormed = false ∧
    (AsmLine.gfDiv 256 0).wellFormed = false ∧ (AsmLine.gfDiv 0 256).wellFormed = false ∧
    (AsmLine.gfExp 256).wellFormed = false ∧ (AsmLine.gfLog 256).wellFormed = false ∧
    (AsmLine.rsGen 256).wellFormed = false ∧ (AsmLine.rsBlock 256).wellFormed = false ∧
    (AsmLine.rsEncode 256 .L).wellFormed = false := by decide

/-- Values outside a command's domain still assemble (R93: rs.gen 0, rs.gen 31, rs.encode 41, L). -/
theorem test_asm_out_of_domain :
    (AsmLine.rsGen 0).assemble.map encode = some 0x00000006 ∧
    (AsmLine.rsGen 31).assemble.map encode = some 0x00001F06 ∧
    (AsmLine.rsEncode 41 .L).assemble.map encode = some 0x00002908 := by decide

/-! ## Decoding: words written out bit by bit as RSV1, B, A, RSV0, OP (R81, R84) -/

theorem test_decode_gfAdd : decode 0b00000000_11001010_01010011_0000_0001#32 = .command (.gfAdd 0x53 0xCA) := by decide
theorem test_decode_gfMul : decode 0b00000000_10001110_00000010_0000_0010#32 = .command (.gfMul 0x02 0x8E) := by decide
theorem test_decode_gfDiv : decode 0b00000000_00000010_00011101_0000_0011#32 = .command (.gfDiv 0x1D 0x02) := by decide
theorem test_decode_gfExp : decode 0b00000000_00000000_11111111_0000_0100#32 = .command (.gfExp 255) := by decide
theorem test_decode_gfLog : decode 0b00000000_00000000_10001110_0000_0101#32 = .command (.gfLog 0x8E) := by decide
theorem test_decode_genPoly : decode 0b00000000_00000000_00011110_0000_0110#32 = .command (.genPoly 30) := by decide
theorem test_decode_rsBlock : decode 0b00000000_00000000_00001010_0000_0111#32 = .command (.rsBlock 10) := by decide
theorem test_decode_rsEncode_levels :
    decode 0b00000000_000000_00_00101000_0000_1000#32 = .command (.rsEncode 40 .L) ∧
    decode 0b00000000_000000_01_00000001_0000_1000#32 = .command (.rsEncode 1 .M) ∧
    decode 0b00000000_000000_10_00000101_0000_1000#32 = .command (.rsEncode 5 .Q) ∧
    decode 0b00000000_000000_11_00101000_0000_1000#32 = .command (.rsEncode 40 .H) := by decide

/-- The host's entry decodes a table word, and refuses an illegal one. -/
theorem test_decodeTableWord :
    decodeTableWord 32 0x00CA5302 = some (.gfMul 0x53 0xCA) ∧ decodeTableWord 32 0 = none := by decide

/-! ## Small states -/

/-- What a step leaves; the reset state where it leaves none. -/
def after (o : Host.Outcome State Fault Refusal) : State :=
  match o with
  | .next s => s
  | .fault _ => .reset
  | .refused _ => .reset

/-- The reset state with the data bytes at CWMEM address 0, SRC = 0, LEN their number, and DST. -/
def withData (ds : List Byte) (dst : Nat) : State :=
  { State.reset.writeCw 0 ds with len := BitVec.ofNat 13 ds.length, dst := BitVec.ofNat 12 dst }

/-- s with every row of its capacity table r. -/
def withRow (s : State) (r : CapRow) : State := { s with capTable := Vector.replicate 40 ⟨r, r, r, r⟩ }

/-- The state one step after the word w is placed. -/
def ran (s : State) (w : Nat) : State := after (step (s.withFetchWord 32 w))

/-- The data of V5.1, "01234567". -/
def v5Data : List Byte :=
  [0x10, 0x20, 0x0C, 0x56, 0x61, 0x80, 0xEC, 0x11, 0xEC, 0x11, 0xEC, 0x11, 0xEC, 0x11, 0xEC, 0x11]

/-- The EC codewords of V5.1. -/
def v5Ec : List Byte := [0xA5, 0x24, 0xD4, 0xC1, 0xED, 0x36, 0xC7, 0x87, 0x2C, 0x55]

/-! ## Commands -/

/-- V1.1, V1.2. -/
theorem test_gfAdd : (ran .reset 0x00CA5301).result = 0x99 ∧ (ran .reset 0x00FFFF01).result = 0x00 := by decide
/-- V1.7 (the AES field would give 01), V1.4. -/
theorem test_gfMul : (ran .reset 0x00CA5302).result = 0x8F ∧ (ran .reset 0x00530002).result = 0x00 := by decide
/-- V1.19, V1.16: 0 / 7 is 0. -/
theorem test_gfDiv : (ran .reset 0x00530103).result = 0x8C ∧ (ran .reset 0x00070003).result = 0x00 := by decide
/-- V8.10: 0 / 0 is DIV_ZERO; STATUS = DONE and ERR. -/
theorem test_gfDiv_zero : (ran .reset 0x00000003).errcode = 2 ∧ (ran .reset 0x00000003).statusWord = 0x6 := by decide
/-- V2.10, V2.9. -/
theorem test_gfExp : (ran .reset 0x0000FF04).result = 0x01 ∧ (ran .reset 0x0000FE04).result = 0x8E := by decide
/-- V2.16, and V8.11: the log of 0 is LOG_ZERO. -/
theorem test_gfLog : (ran .reset 0x00008E05).result = 0xFE ∧ (ran .reset 0x00000005).errcode = 3 := by decide
/-- V3.6, GEN[8..31] = 0. -/
theorem test_genPoly : (ran .reset 0x00000706).gen.toList
    = [0x75, 0x44, 0x0B, 0xA4, 0x9A, 0x7A, 0x7F, 0x01] ++ List.replicate 24 0 := by decide +kernel
/-- V8.13: degree 31 is INVALID_DEGREE although GEN has 32 entries. -/
theorem test_genPoly_31 : (ran .reset 0x00001F06).errcode = 4 ∧ (ran .reset 0x00001F06).gdeg = 0 := by decide
/-- V5.1. -/
theorem test_rsBlock : (ran (withData v5Data 16) 0x00000A07).cwRange 16 10 = v5Ec := by decide +kernel
/-- V8.22: CW[15] is in both ranges. -/
theorem test_rsBlock_overlap : (ran (withData v5Data 15) 0x00000A07).errcode = 9 := by decide
/-- V5.2: the registers. -/
theorem test_rsEncode_geometry :
    (ran (withRow (withData v5Data 16) ⟨1, 16, 0, 0, 10⟩) 0x00010108).geom0 = 0x00001001 ∧
    (ran (withRow (withData v5Data 16) ⟨1, 16, 0, 0, 10⟩) 0x00010108).readReg .geom1 = 0x0010010A := by decide +kernel
/-- s with a table of one-block rows that all differ: NEC = 2, and G1K = 4 (v - 1) + 1, 2, 3, 4 at the levels L, M, Q, H. -/
def withRows (s : State) : State :=
  let row (i k : Nat) : CapRow := ⟨1, BitVec.ofNat 8 (4 * i + k), 0, 0, 2⟩
  { s with capTable := Vector.ofFn fun i => ⟨row i 1, row i 2, row i 3, row i 4⟩ }

/-- R135: the row is that of the version and level of the word: seven data codewords fit version 2 at level Q, and no
other version or level (LENGTH_MISMATCH). -/
theorem test_rsEncode_selects_row :
    (ran (withRows (withData (List.replicate 7 0x01) 8)) 0x00020208).geom0 = 0x00000701 ∧
    (ran (withRows (withData (List.replicate 7 0x01) 8)) 0x00010208).errcode = 7 ∧
    (ran (withRows (withData (List.replicate 7 0x01) 8)) 0x00020108).errcode = 7 ∧
    (ran (withRows (withData (List.replicate 7 0x01) 8)) 0x00020308).errcode = 7 := by decide +kernel

/-- The EC area of two groups: data 01 | 01 00 with n = 2 gives 03 02 (V4.2), then 07 06 (V4.6), in block order. -/
theorem test_rsEncode_blocks :
    (ran (withRow (withData [0x01, 0x01, 0x00] 8) ⟨1, 1, 1, 2, 2⟩) 0x00000508).cwRange 8 4
      = [0x03, 0x02, 0x07, 0x06] := by decide +kernel

/-! ## The bus, the host, reset -/

/-- V9.2: a word is little-endian. -/
theorem test_word_write_byte_reads :
    ((State.reset.busWrite (cwOffset 0) .b32 0x44332211).state.busRead (cwOffset 0) .b8).data = 0x11 ∧
    ((State.reset.busWrite (cwOffset 0) .b32 0x44332211).state.busRead (cwOffset 3) .b8).data = 0x44 := by decide
/-- V9.3: CW[4], CW[6], CW[7] were never written. -/
theorem test_uninit_read :
    ((State.reset.busWrite (cwOffset 5) .b8 0xAB).state.busRead (cwOffset 4) .b32).state.faults
      = [.uninitRead 4, .uninitRead 6, .uninitRead 7] := by decide
/-- V9.4 and V9.6: a misaligned word and a 16-bit access are answered ERROR. -/
theorem test_bus_errors :
    (State.reset.busRead (cwOffset 2) .b32).resp = .error ∧ (State.reset.busRead (cwOffset 2) .b32).state.werr = true ∧
    (State.reset.busWrite (cwOffset 0) .b16 0xFFFF).state.mem = [] := by decide
/-- V9.7. -/
theorem test_src_len_masks :
    (State.reset.busWrite srcOffset .b32 0xFFFFFFFF).state.readReg .src = 0x00000FFF ∧
    (State.reset.busWrite lenOffset .b32 0xFFFFFFFF).state.readReg .len = 0x00001FFF := by decide
/-- V9.10: after V8.9, writing 2 to STATUS leaves ERR. -/
theorem test_status_w1c : ((ran .reset 0x00000103).busWrite statusOffset .b32 0x2).state.statusWord = 0x4 := by decide
/-- V9.13 and V9.14: IRQ after a completion with IE = 1; a soft reset discards the IE of its own write. -/
theorem test_irq :
    (ran { State.reset with ie := true } 0x00000104).irq = true ∧
    ((ran { State.reset with ie := true } 0x00000104).busWrite ctrlOffset .b32 0x3).state.irq = false := by decide
/-- V9.15: an abort of V5.1 leaves CW[0..15] defined and CW[16..25] not. -/
theorem test_abort :
    (({ withData (v5Data ++ v5Ec) 16 with len := 16 } : State).accept 0x00000A07).softReset.mem.map Prod.fst
      = List.range 16 := by decide
/-- P5: a write to SRC while the command runs is refused; after the engine's turn it is accepted. -/
theorem test_race :
    (after (step { State.reset.accept 0x00000706 with
      hostProg := [wr32 srcOffset 5], schedule := [.host] })).src = 0 ∧
    (after (step { State.reset.accept 0x00000706 with
      hostProg := [wr32 srcOffset 5], schedule := [.host] })).werr = true := by decide

/-! ## Witnesses: every statement's hypotheses are met -/

theorem test_witness_EncodeOfDecode : decode 0x00032808 = .command (.rsEncode 40 .H) := by decide

theorem test_witness_UnassignedOpcodesRejected :
    (0x00000000#32).extractLsb' 0 4 = 0 ∧ 9 ≤ ((0x00000009#32).extractLsb' 0 4).toNat ∧
    9 ≤ ((0xFFFFFFFF#32).extractLsb' 0 4).toNat := by decide

theorem test_witness_ReservedBitsRejected :
    (0x00000011#32).extractLsb' 4 4 ≠ 0 ∧ (0x01000001#32).extractLsb' 24 8 ≠ 0 ∧
    ((0x00010004#32).extractLsb' 0 4).toNat = 4 ∧ (0x00010004#32).extractLsb' 16 8 ≠ 0 ∧
    ((0x00800007#32).extractLsb' 0 4).toNat = 7 ∧ (0x00800007#32).extractLsb' 16 8 ≠ 0 ∧
    (0x00040008#32).extractLsb' 0 4 = 8 ∧ (0x00040008#32).extractLsb' 18 6 ≠ 0 := by decide

theorem test_witness_AssembledWords :
    (255 < 256) ∧ (256 ≤ 255 ∨ 256 ≤ 256) ∧ 256 ≤ 256 := by decide

/-- A state whose engine has the word w latched and the next turn. -/
def latched (w : Word) : State := State.reset.withLatched w

theorem test_witness_StepRunsDecodedInstruction :
    (latched 0x00CA5302).turn = .engine ∧ (latched 0x00CA5302).busy = true ∧
    decode (latched 0x00CA5302).cmdLast = .command (.gfMul 0x53 0xCA) := by decide

theorem test_witness_IllegalWordCompletes :
    (latched 0x00000011).turn = .engine ∧ (latched 0x00000011).busy = true ∧
    decode (latched 0x00000011).cmdLast = .illegal .reservedBit := by decide

/-- A host about to write a command. -/
def commandWriter : State := { State.reset with hostProg := [issue (.genPoly 7)] }

theorem test_witness_EngineStepExactlyWhileBusy :
    ((latched 0x00000706).turn = .engine ∧ (latched 0x00000706).busy = true) ∧
    (({ State.reset with schedule := [.engine] } : State).turn = .engine ∧
      ({ State.reset with schedule := [.engine] } : State).busy = false) ∧
    ∃ t, step commandWriter = .next t ∧ commandWriter.busy = false ∧ t.busy = true :=
  ⟨by decide, by decide, _, rfl, by decide, by decide⟩

theorem test_witness_AcceptedCommandLeavesEngine : (latched 0x00000706).busy = true := by decide

theorem test_witness_GfDivCompletes : (0x02 : Byte) ≠ 0 := by decide

theorem test_witness_GfLogCompletes : (0x8E : Byte) ≠ 0 := by decide

theorem test_witness_OperandValueErrors : (0 : Byte).toNat = 0 ∧ 30 < (31 : Byte).toNat := by decide

theorem test_witness_FieldLaws : (0x53 : Byte) ≠ 0 ∧ (0xCA : Byte) ≠ 0 ∧ 254 < 255 := by decide

theorem test_witness_GenPolyCompletes :
    (1 ≤ (1 : Byte).toNat ∧ (1 : Byte).toNat ≤ 30) ∧ (1 ≤ (30 : Byte).toNat ∧ (30 : Byte).toNat ≤ 30) := by decide

/-- An idle state whose one-block symbol 1 × 1 + 0 × 0 with 2 EC codewords can be encoded. -/
def oneBlock : State := withRow (withData [0x01] 8) ⟨1, 1, 0, 0, 2⟩

/-- An idle state with a symbol of both groups. -/
def twoGroups : State := withRow (withData [0x01, 0x01, 0x00] 3) ⟨1, 1, 1, 2, 2⟩

theorem test_witness_GeneratorRegistersHoldPolynomial :
    (∃ t, exec (.genPoly 30) .reset = .next t ∧ t.errcode = 0) ∧
    (∃ t, exec (.rsBlock 2) oneBlock = .next t ∧ t.errcode = 0) ∧
    (∃ t, exec (.rsEncode 1 .L) oneBlock = .next t ∧ t.errcode = 0) :=
  ⟨⟨_, rfl, by decide⟩, ⟨_, rfl, by decide⟩, ⟨_, rfl, by decide⟩⟩

theorem test_witness_GeneratorIsProductOfLinearFactors : 1 ≤ 30 ∧ 30 ≤ 30 := by decide

theorem test_witness_GeneratorConsequences : (1 ≤ 30 ∧ 30 ≤ 30) ∧ (1 ≤ 29 ∧ 29 < 30) := by decide

theorem test_witness_EcCodewordsAreRemainder : 1 ≤ 30 ∧ 30 ≤ 30 := by decide

theorem test_witness_CodewordIsMultipleOfGenerator : 1 ≤ 1 ∧ 1 ≤ 30 := by decide

/-- V4.11: the data range ends exactly at 4096, the destination just before it. -/
def atTheEnd : State := { withData [0xFF, 0xFF, 0xFF, 0xFF] 4088 with src := 4092 }

theorem test_witness_RsBlockCompletes :
    (atTheEnd.src.toNat + atTheEnd.len.toNat ≤ 4096 ∧ atTheEnd.dst.toNat + (4 : Byte).toNat ≤ 4096 ∧
      atTheEnd.dst.toNat + (4 : Byte).toNat ≤ atTheEnd.src.toNat) ∧
    State.reset.len.toNat = 0 ∧
    (withData v5Data 16).src.toNat + (withData v5Data 16).len.toNat ≤ (withData v5Data 16).dst.toNat := by decide

theorem test_witness_RsBlockErrors :
    4096 < ({ atTheEnd with src := 4093 } : State).src.toNat + ({ atTheEnd with src := 4093 } : State).len.toNat ∧
    4096 < ({ atTheEnd with dst := 4093 } : State).dst.toNat + (4 : Byte).toNat ∧
    (0 < (withData v5Data 15).len.toNat ∧
      (withData v5Data 15).src.toNat < (withData v5Data 15).dst.toNat + (10 : Byte).toNat ∧
      (withData v5Data 15).dst.toNat < (withData v5Data 15).src.toNat + (withData v5Data 15).len.toNat) := by decide

theorem test_witness_RsEncodeCompletes :
    (withRows oneBlock).capTable[(1 : Byte).toNat - 1]?
      = some ⟨⟨1, 1, 0, 0, 2⟩, ⟨1, 2, 0, 0, 2⟩, ⟨1, 3, 0, 0, 2⟩, ⟨1, 4, 0, 0, 2⟩⟩ ∧
    (⟨1, 1, 0, 0, 2⟩ : CapRow).valid = true ∧ (withRows oneBlock).len.toNat = (⟨1, 1, 0, 0, 2⟩ : CapRow).ktot ∧
    (withRows oneBlock).src.toNat + 1 ≤ (withRows oneBlock).dst.toNat ∧ (withRows oneBlock).dst.toNat + 2 ≤ 4096 ∧
    twoGroups.capTable[(40 : Byte).toNat - 1]? = some ⟨⟨1, 1, 1, 2, 2⟩, ⟨1, 1, 1, 2, 2⟩, ⟨1, 1, 1, 2, 2⟩, ⟨1, 1, 1, 2, 2⟩⟩ ∧
    (⟨1, 1, 1, 2, 2⟩ : CapRow).valid = true ∧
    twoGroups.len.toNat = (⟨1, 1, 1, 2, 2⟩ : CapRow).ktot ∧
    twoGroups.src.toNat + (⟨1, 1, 1, 2, 2⟩ : CapRow).ktot ≤ twoGroups.dst.toNat ∧
    twoGroups.dst.toNat + (⟨1, 1, 1, 2, 2⟩ : CapRow).etot ≤ 4096 := by decide

/-- V8.15 to V8.24 in small: the version, the row, the length, the range and the overlap. -/
theorem test_witness_RsEncodeErrors :
    (0 : Byte).toNat = 0 ∧ 40 < (41 : Byte).toNat ∧ (1 ≤ (40 : Byte).toNat ∧ (40 : Byte).toNat ≤ 40) ∧
    (⟨1, 19, 0, 0, 31⟩ : CapRow).valid = false ∧
    ({ twoGroups with len := 2 } : State).len.toNat ≠ (⟨1, 1, 1, 2, 2⟩ : CapRow).ktot ∧
    4096 < ({ twoGroups with src := 4094 } : State).src.toNat + (⟨1, 1, 1, 2, 2⟩ : CapRow).ktot ∧
    4096 < ({ twoGroups with dst := 4093 } : State).dst.toNat + (⟨1, 1, 1, 2, 2⟩ : CapRow).etot ∧
    (({ twoGroups with dst := 2 } : State).src.toNat < ({ twoGroups with dst := 2 } : State).dst.toNat + (⟨1, 1, 1, 2, 2⟩ : CapRow).etot ∧
      ({ twoGroups with dst := 2 } : State).dst.toNat < ({ twoGroups with dst := 2 } : State).src.toNat + (⟨1, 1, 1, 2, 2⟩ : CapRow).ktot)
    := by decide

theorem test_witness_RsEncodeInvariants :
    ∃ t, exec (.rsEncode 40 .H) twoGroups = .next t ∧ t.errcode = 0 ∧
      twoGroups.capRow 40 .H = some ⟨1, 1, 1, 2, 2⟩ := ⟨_, rfl, by decide, by decide⟩

theorem test_witness_GeometryRegistersRead :
    ∃ t, exec (.rsEncode 1 .M) twoGroups = .next t ∧ t.errcode = 0 := ⟨_, rfl, by decide⟩

theorem test_witness_OneBlockSymbolMatchesRsBlock :
    oneBlock.capRow 1 .L = some ⟨1, 1, 0, 0, 2⟩ ∧
    ∃ t, exec (.rsEncode 1 .L) oneBlock = .next t ∧ t.errcode = 0 := ⟨by decide, _, rfl, by decide⟩

theorem test_witness_MemoryOutsideDestinationUnchanged :
    (∃ t, exec (.rsBlock 2) oneBlock = .next t ∧ 7 < oneBlock.dst.toNat ∧
      oneBlock.dst.toNat + (2 : Byte).toNat ≤ 10 ∧ oneBlock.src.toNat ≤ 0 ∧
      0 < oneBlock.src.toNat + oneBlock.len.toNat) ∧
    (∃ t, exec (.rsEncode 0 .L) oneBlock = .next t ∧ oneBlock.capRow 0 .L = none) ∧
    (∃ t, exec (.rsEncode 1 .L) oneBlock = .next t ∧ oneBlock.capRow 1 .L = some ⟨1, 1, 0, 0, 2⟩) :=
  ⟨⟨_, rfl, by decide, by decide, by decide, by decide⟩, ⟨_, rfl, by decide⟩, ⟨_, rfl, by decide⟩⟩

theorem test_witness_CommandWriteSets : ∃ t, exec (.rsBlock 2) oneBlock = .next t := ⟨_, rfl⟩

theorem test_witness_FailureCommitsNothing :
    (∃ t, exec (.gfDiv 1 0) .reset = .next t ∧ t.errcode ≠ 0) ∧
    (∃ t, (latched 0x00000011).busy = true ∧ decode (latched 0x00000011).cmdLast = .illegal .reservedBit ∧
      engineStep (latched 0x00000011) = .next t) :=
  ⟨⟨_, rfl, by decide⟩, ⟨_, by decide, by decide, rfl⟩⟩

theorem test_witness_ErrorsOfEachCommand : ∃ t, exec (.rsEncode 41 .M) .reset = .next t := ⟨_, rfl⟩

theorem test_witness_ResultDependsOnOperandsOnly :
    oneBlock.mem = ({ oneBlock with ie := true, result := 7 } : State).mem ∧
    oneBlock.lostRanges = ({ oneBlock with ie := true, result := 7 } : State).lostRanges ∧
    oneBlock.capTable = ({ oneBlock with ie := true, result := 7 } : State).capTable ∧
    ∃ t t', exec (.rsBlock 2) oneBlock = .next t ∧
      exec (.rsBlock 2) { oneBlock with ie := true, result := 7 } = .next t' ∧ t.errcode = 0 :=
  ⟨rfl, rfl, rfl, _, _, rfl, rfl, by decide⟩

theorem test_witness_CommandAcceptance : State.reset.busy = false := by decide

theorem test_witness_IrqFalls :
    (∃ t, exec (.gfAdd 1 2) { State.reset with ie := true } = .next t) ∧
    (∃ t, exec (.gfDiv 1 0) { State.reset with ie := true } = .next t ∧ t.errcode ≠ 0) ∧
    (∃ t, (latched 0x00000011).busy = true ∧ decode (latched 0x00000011).cmdLast = .illegal .reservedBit ∧
      engineStep (latched 0x00000011) = .next t) ∧
    (0x2 : Word).getLsbD 1 = true ∧ (0x2 : Word).getLsbD 0 = false ∧ State.reset.busy = false :=
  ⟨⟨_, rfl⟩, ⟨_, rfl, by decide⟩, ⟨_, by decide, by decide, rfl⟩, by decide, by decide, by decide⟩

theorem test_witness_RegisterAccessForms :
    ((0x000 : Offset).toNat < 0x1000 ∧ AccessWidth.b8 ≠ .b32) ∧
    ((0xFFE : Offset).toNat < 0x1000 ∧ (0xFFE : Offset).toNat % 4 ≠ 0) ∧
    ((0xFFC : Offset).toNat < 0x1000 ∧ (0xFFC : Offset).toNat % 4 = 0) := by decide

theorem test_witness_WindowAccessForms :
    ((0x1FFF : Offset).toNat = 0x1000 + 4095 ∧ State.reset.busy = false) ∧
    ((0x1FFC : Offset).toNat = 0x1000 + 4092 ∧ 4092 % 4 = 0) ∧
    ((0x1FFE : Offset).toNat = 0x1000 + 4094 ∧ 4094 % 4 ≠ 0) := by decide

theorem test_witness_LittleEndianWindow :
    ((0x1000 : Offset).toNat = 0x1000 + 0 ∧ 0 % 4 = 0 ∧ State.reset.busy = false) ∧
    ((0x1FFC : Offset).toNat = 0x1000 + 4092 ∧ 4092 % 4 = 0) := by decide

theorem test_witness_BusyRefusals :
    (latched 0x00000706).busy = true ∧ 0x1000 ≤ (0x1000 : Offset).toNat ∧ 0x1000 ≤ (0x1FFF : Offset).toNat ∧
    accessTarget 0x000 .b32 = some (.reg .id) ∧ accessTarget 0x0FC .b32 = some (.reg (.gen 31)) := by decide

theorem test_witness_OperandRegisterWidths : State.reset.busy = false := by decide

theorem test_witness_ReadOnlyRegisters :
    (0x034 : Offset) ∈ [0x000, 0x004, 0x014, 0x018, 0x028, 0x02C, 0x030, 0x034] ∧
    BitVec.ofNat 13 (0x080 + 4 * (31 : Fin 32).val) = (0x0FC : Offset) := by decide

theorem test_witness_ReadsChangeNothing :
    (State.reset.busRead 0x001 .b8).resp = .error ∧ (State.reset.busRead 0x1000 .b8).resp = .okay ∧
    accessTarget 0x014 .b32 = some (.reg .result) := by decide

theorem test_witness_ModelFaultsRecorded :
    ((0x1FFF : Offset).toNat = 0x1000 + 4095 ∧ Mem.lookup State.reset.mem 4095 = none) ∧
    ((0x1000 : Offset).toNat = 0x1000 + 0 ∧ 0 % 4 = 0) ∧
    (0x038 ≤ (0x038 : Offset).toNat ∧ (0x07C : Offset).toNat < 0x080 ∧ (0x038 : Offset).toNat % 4 = 0) ∧
    (0x100 ≤ (0x100 : Offset).toNat ∧ (0xFFC : Offset).toNat < 0x1000 ∧ (0xFFC : Offset).toNat % 4 = 0) := by decide

/-- The reset state with a one-operation host program. -/
def hostWith (op : HostOp) : State := { State.reset with hostProg := [op] }

theorem test_witness_HostOperations :
    (hostWith .halt).turn = .host ∧ (hostWith .halt).hostNext = some .halt ∧
    (hostWith (wr8 (cwOffset 4095) 0xAB)).hostNext = some (.write 0x1FFF .b8 0xAB) ∧
    (hostWith (rd32 statusOffset 2)).hostNext = some (.read statusOffset .b32 2) ∧
    (hostWith (.bz 0 2 5)).hostNext = some (.bz 0 2 5) ∧ (hostWith (.bnz 0 2 5)).hostNext = some (.bnz 0 2 5) ∧
    State.reset.hostNext = none := by decide

theorem test_witness_SoftResetReturnsRegisters :
    (0x3 : Word).getLsbD 1 = true ∧ State.reset.busy = false ∧ (0x1 : Word).getLsbD 1 = false := by decide

theorem test_witness_AbortLosesDestination :
    (0x3 : Word).getLsbD 1 = true ∧
    ((oneBlock.accept 0x00000207).busy = true ∧
      decode (oneBlock.accept 0x00000207).cmdLast = .command (.rsBlock 2) ∧
      (oneBlock.accept 0x00000207).blockError 2 = none ∧
      (oneBlock.accept 0x00000207).src.toNat ≤ 0 ∧ 0 < (oneBlock.accept 0x00000207).len.toNat) ∧
    (decode (oneBlock.accept 0x00001F07).cmdLast = .command (.rsBlock 31) ∧
      (oneBlock.accept 0x00001F07).blockError 31 ≠ none) ∧
    (decode (oneBlock.accept 0x00000108).cmdLast = .command (.rsEncode 1 .L) ∧
      (oneBlock.accept 0x00000108).capRow 1 .L = some ⟨1, 1, 0, 0, 2⟩ ∧
      (oneBlock.accept 0x00000108).rowError ⟨1, 1, 0, 0, 2⟩ = none) ∧
    (({ oneBlock with len := 2 } : State).rowError ⟨1, 1, 0, 0, 2⟩ ≠ none) ∧
    (decode (oneBlock.accept 0x00000008).cmdLast = .command (.rsEncode 0 .L) ∧
      (oneBlock.accept 0x00000008).capRow 0 .L = none) ∧
    decode (oneBlock.accept 0x00000706).cmdLast = .command (.genPoly 7) := by decide

/-- The invariant holds of a state with a command latched, data written and a fault recorded. -/
theorem test_witness_StepKeepsInvariant :
    (({ withData [0x01, 0x02] 8 with faults := [.uninitRead 0] } : State).accept 0x00000207).Inv ∧
    ∃ t, step (({ withData [0x01, 0x02] 8 with faults := [.uninitRead 0] } : State).accept 0x00000207) = .next t :=
  ⟨by constructor <;> decide, _, rfl⟩

theorem test_witness_FaultsNeverCleared :
    ∃ t, step { latched 0x00000706 with faults := [.uninitRead 0] } = .next t := ⟨_, rfl⟩

theorem test_witness_ConstantsNeverChange : ∃ t, step commandWriter = .next t := ⟨_, rfl⟩

/-- Each of the three events: a window write, a completion, and an aborting soft reset. -/
theorem test_witness_OnlyTheseEventsChangeMemory :
    (∃ t, step (hostWith (wr8 (cwOffset 0) 0x01)) = .next t ∧ t.mem ≠ State.reset.mem) ∧
    (∃ t, step (oneBlock.withLatched 0x00000207) = .next t ∧ t.mem ≠ oneBlock.mem) ∧
    (∃ t, step { (oneBlock.writeCw 8 [0x07]).accept 0x00000207 with
        hostProg := [wr32 ctrlOffset 0x2], schedule := [.host] } = .next t ∧
      t.mem ≠ (oneBlock.writeCw 8 [0x07]).mem) :=
  ⟨⟨_, rfl, by decide⟩, ⟨_, rfl, by decide +kernel⟩, ⟨_, rfl, by decide⟩⟩

end Sys2Proof.Tests
end

section
/-!
PROOF. Proofs/Noninterference.lean: the result of a command is a function of the command, the operand registers, CWMEM and
CAPTABLE alone (00_scope.md R12). Two states that agree on those pass the same checks and read the same data bytes, so
a command fails in both with one code or commits the same values in both.
-/
namespace Sys2Proof.Machine

/-- The two states agree on all that a command may read (R12): the operand registers, CWMEM with what its undefined bytes
hold (log entry 4), and CAPTABLE. -/
structure State.SameOperands (s s' : State) : Prop where
  src : s.src = s'.src
  len : s.len = s'.len
  dst : s.dst = s'.dst
  mem : s.mem = s'.mem
  lostRanges : s.lostRanges = s'.lostRanges
  capTable : s.capTable = s'.capTable

/-- Two runs end alike: the same code and the same CWMEM, and on success what the command writes agrees. -/
def EndAlike (t t' : State) (writtenAgree : Prop) : Prop :=
  t.errcode = t'.errcode ∧ t.mem = t'.mem ∧ (t.errcode = 0 → writtenAgree)

/-- Code 0 is kept for success (R150). -/
theorem ErrCode.code_ne_zero (c : ErrCode) : c.code ≠ 0 := by
  cases c <;> decide

section
variable {s s' t t' : State} (h : s.SameOperands s')
include h

/-! ## What is computed from the operands -/

theorem State.SameOperands.cw (a : Nat) : s.cw a = s'.cw a := by
  simp only [State.cw, State.timesLost, h.mem, h.lostRanges]

theorem State.SameOperands.cwRange (start k : Nat) : s.cwRange start k = s'.cwRange start k :=
  List.map_congr_left fun a _ => h.cw a

theorem State.SameOperands.capRow (v : Byte) (e : EcLevel) : s.capRow v e = s'.capRow v e := by
  simp only [State.capRow, h.capTable]

theorem State.SameOperands.rangeError (k m : Nat) : s.rangeError k m = s'.rangeError k m := by
  simp only [State.rangeError, h.src, h.dst]

theorem State.SameOperands.blockError (n : Byte) : s.blockError n = s'.blockError n := by
  simp only [State.blockError, h.rangeError, h.len]

theorem State.SameOperands.rowError (r : CapRow) : s.rowError r = s'.rowError r := by
  simp only [State.rowError, h.rangeError, h.len]

/-! ## The ways a command ends -/

/-- A failed command writes nothing but the status (R162), so nothing else has to agree. -/
theorem State.SameOperands.raiseError_endAlike (c : ErrCode) (writtenAgree : Prop) :
    EndAlike (s.raiseError c) (s'.raiseError c) writtenAgree :=
  ⟨rfl, h.mem, fun h0 => absurd h0 c.code_ne_zero⟩

/-- A GF command that succeeds leaves RESULT as its value and CWMEM as it was (R103). -/
theorem State.SameOperands.completeWith_endAlike (v : Byte) :
    EndAlike (s.completeWith v) (s'.completeWith v) ((s.completeWith v).result = (s'.completeWith v).result) :=
  ⟨rfl, h.mem, fun _ => rfl⟩

/-! ## The commands with checks -/

/-- A GF command whose operand is checked first: GF_DIV and GF_LOG fail in both states or leave one value in both. -/
theorem State.SameOperands.checkedValue_endAlike (bad : Prop) [Decidable bad] (c : ErrCode) (v : Byte)
    (ht : t = if bad then s.raiseError c else s.completeWith v)
    (ht' : t' = if bad then s'.raiseError c else s'.completeWith v) :
    EndAlike t t' (t.result = t'.result) := by
  subst ht ht'
  by_cases hb : bad
  · simp only [if_pos hb]
    exact h.raiseError_endAlike c _
  · simp only [if_neg hb]
    exact h.completeWith_endAlike v

/-- GEN_POLY fails the check of its degree in both states, or leaves the same generator in both. -/
theorem execGenPoly_endAlike {n : Byte} (ht : execGenPoly n s = .next t) (ht' : execGenPoly n s' = .next t') :
    EndAlike t t' (t.gen = t'.gen ∧ t.gdeg = t'.gdeg) := by
  cases ht; cases ht'
  cases degreeError n with
  | some c => exact h.raiseError_endAlike c _
  | none => exact ⟨rfl, h.mem, fun _ => ⟨rfl, rfl⟩⟩

/-- RS_BLOCK fails the same check in both states, or divides the same data in both. -/
theorem execRsBlock_endAlike {n : Byte} (ht : execRsBlock n s = .next t) (ht' : execRsBlock n s' = .next t') :
    EndAlike t t' (t.gen = t'.gen ∧ t.gdeg = t'.gdeg) := by
  cases ht; cases ht'
  rw [h.blockError]
  cases s'.blockError n with
  | some c => exact h.raiseError_endAlike c _
  | none => simp [EndAlike, h.src, h.len, h.dst, h.mem, h.cwRange]

/-- RS_ENCODE selects the same row in both states, then fails the same check in both or encodes the same data in both. -/
theorem execRsEncode_endAlike {v : Byte} {e : EcLevel} (ht : execRsEncode v e s = .next t)
    (ht' : execRsEncode v e s' = .next t') :
    EndAlike t t'
      (t.gen = t'.gen ∧ t.gdeg = t'.gdeg ∧ t.geom0 = t'.geom0 ∧ t.geom1 = t'.geom1 ∧ t.etot = t'.etot) := by
  cases ht; cases ht'
  rw [h.capRow]
  cases s'.capRow v e with
  | none => exact h.raiseError_endAlike _ _
  | some r =>
    simp only [h.rowError]
    cases s'.rowError r with
    | some c => exact h.raiseError_endAlike c _
    | none => simp [EndAlike, h.src, h.dst, h.mem, h.cwRange]

end

/-- Settles O40: a command reads nothing but its operands, so by the command it ends alike in two states that agree on
them. -/
theorem resultDependsOnOperandsOnly : Obligations.ResultDependsOnOperandsOnly := by
  intro i s s' t t' hsrc hlen hdst hmem hlost hcap ht ht'
  have h : s.SameOperands s' := ⟨hsrc, hlen, hdst, hmem, hlost, hcap⟩
  cases i with
  | gfAdd a b => cases ht; cases ht'; exact h.completeWith_endAlike _
  | gfMul a b => cases ht; cases ht'; exact h.completeWith_endAlike _
  | gfDiv a b => cases ht; cases ht'; exact h.checkedValue_endAlike (b = 0) .divZero (gfdiv a b) rfl rfl
  | gfExp a => cases ht; cases ht'; exact h.completeWith_endAlike _
  | gfLog a => cases ht; cases ht'; exact h.checkedValue_endAlike (a = 0) .logZero (BitVec.ofNat 8 (logRom a)) rfl rfl
  | genPoly n => exact execGenPoly_endAlike h ht ht'
  | rsBlock n => exact execRsBlock_endAlike h ht ht'
  | rsEncode v e => exact execRsEncode_endAlike h ht ht'

end Sys2Proof.Machine
end

section
/-!
PROOF. Proofs/RegisterAccess.lean: what a 32-bit access to a register or to a reserved offset gives (20_memory.md R59, R65,
R67), and from it the register map (10_state.md R21 to R38): the reads, the read-only registers, STATUS, and the operand
registers.
-/
namespace Sys2Proof.Machine

/-! ## One rule per kind of access -/

/-- An aligned 32-bit access below 0x1000 addresses the register of its offset (R59). -/
theorem accessTarget_of_regAt {off : Offset} {r : DevReg} (hlt : off.toNat < 0x1000) (h4 : off.toNat % 4 = 0)
    (hr : regAt off.toNat = some r) : accessTarget off .b32 = some (.reg r) := by
  simp [accessTarget, hlt, h4, hr]

/-- An aligned 32-bit access below 0x1000 where no register stands is reserved (R65). -/
theorem accessTarget_of_no_reg {off : Offset} (hlt : off.toNat < 0x1000) (h4 : off.toNat % 4 = 0)
    (hr : regAt off.toNat = none) : accessTarget off .b32 = some .reserved := by
  simp [accessTarget, hlt, h4, hr]

/-- A register read is answered OKAY and changes nothing, whatever BUSY is (R67, R69). -/
theorem State.busRead_of_reg (s : State) {off : Offset} {w : AccessWidth} {r : DevReg}
    (h : accessTarget off w = some (.reg r)) : s.busRead off w = ⟨.okay, s.readReg r, s⟩ := by
  simp [State.busRead, h]

/-- A write to a register that BUSY does not close has the register's effect (R67). -/
theorem State.busWrite_of_reg (s : State) {off : Offset} {w : AccessWidth} {r : DevReg} (v : Word)
    (h : accessTarget off w = some (.reg r)) (hb : s.busy = false ∨ r.closedWhileBusy = false) :
    s.busWrite off w v = ⟨.okay, 0, s.writeReg r v⟩ := by
  have isOpen : (s.busy && r.closedWhileBusy) = false := by
    rcases hb with hb | hb <;> simp [hb]
  simp [State.busWrite, h, isOpen]

/-- A read of a reserved offset returns 0 and records the fault (R65). -/
theorem State.busRead_of_reserved (s : State) {off : Offset} {w : AccessWidth}
    (h : accessTarget off w = some .reserved) : s.busRead off w = ⟨.okay, 0, s.recordReserved off⟩ := by
  simp [State.busRead, h]

/-- A write to a reserved offset is ignored but for the recorded fault (R65). -/
theorem State.busWrite_of_reserved (s : State) {off : Offset} {w : AccessWidth} (v : Word)
    (h : accessTarget off w = some .reserved) : s.busWrite off w v = ⟨.okay, 0, s.recordReserved off⟩ := by
  simp [State.busWrite, h]

/-! ## The registers -/

/-- GEN[i] stands at 0x080 + 4i (R21). -/
theorem accessTarget_gen (i : Fin 32) :
    accessTarget (BitVec.ofNat 13 (0x080 + 4 * i.val)) .b32 = some (.reg (.gen i)) := by
  have hi := i.isLt
  have hoff : (BitVec.ofNat 13 (0x080 + 4 * i.val)).toNat = 0x080 + 4 * i.val := by
    rw [BitVec.toNat_ofNat]; omega
  have hreg : regAt (0x080 + 4 * i.val) = some (.gen i) := by
    unfold regAt
    rw [dif_pos (by omega)]
    exact congrArg (fun j => some (DevReg.gen j)) (Fin.ext (by simp))
  exact accessTarget_of_regAt (by omega) (by omega) (by rw [hoff, hreg])

/-- The offsets without a register: between ETOT and GEN, and above GEN (R21, R65). -/
theorem regAt_eq_none {off : Nat} (h : (0x038 ≤ off ∧ off < 0x080) ∨ 0x100 ≤ off) : regAt off = none := by
  unfold regAt
  rw [dif_neg (by omega), List.getElem?_eq_none_iff]
  simp only [List.length_cons, List.length_nil]
  omega

/-- Two appended fields as one number. -/
theorem toNat_append_eq_add {m n : Nat} (x : BitVec m) (y : BitVec n) :
    (x ++ y).toNat = x.toNat * 2 ^ n + y.toNat := by
  rw [BitVec.toNat_append, ← Nat.shiftLeft_add_eq_or_of_lt y.isLt, Nat.shiftLeft_eq]

/-- STATUS as a number (R25). -/
theorem State.toNat_statusWord (s : State) :
    s.statusWord.toNat = s.busy.toNat + 2 * s.done.toNat + 4 * s.err.toNat + 8 * s.werr.toNat := by
  simp only [State.statusWord, toNat_append_eq_add, BitVec.toNat_ofBool, BitVec.toNat_ofNat]
  omega

/-- The low k bits of a word, read back with 0 above, are the word under the mask of k ones. -/
theorem setWidth_extractLsb'_zero (v : Word) (k : Nat) :
    (v.extractLsb' 0 k).setWidth 32 = v &&& BitVec.ofNat 32 (2 ^ k - 1) := by
  refine BitVec.eq_of_getLsbD_eq fun i hi => ?_
  rw [BitVec.getLsbD_and, BitVec.getLsbD_ofNat, Nat.testBit_two_pow_sub_one]
  simp [hi, Bool.and_comm]

/-! ## The statements -/

/-- Settles O47: a register read and a register write at the offset of STATUS. -/
theorem statusBits : Obligations.StatusBits := by
  intro s v
  have target : accessTarget statusOffset .b32 = some (.reg .status) := by decide
  refine ⟨by rw [s.busRead_of_reg target]; exact s.toNat_statusWord, ?_⟩
  have clear (b c : Bool) : (b && !c) = if c then false else b := by cases c <;> simp
  rw [s.busWrite_of_reg v target (.inr rfl)]
  simp only [State.writeReg, State.writeStatus, clear]

/-- Settles O48: each of the three is open while BUSY = 0, and is read back at the same offset. -/
theorem operandRegisterWidths : Obligations.OperandRegisterWidths := by
  intro s v hb
  have hsrc : accessTarget 0x01C .b32 = some (.reg .src) := by decide
  have hlen : accessTarget 0x020 .b32 = some (.reg .len) := by decide
  have hdst : accessTarget 0x024 .b32 = some (.reg .dst) := by decide
  rw [s.busWrite_of_reg v hsrc (.inl hb), s.busWrite_of_reg v hlen (.inl hb), s.busWrite_of_reg v hdst (.inl hb),
    State.busRead_of_reg _ hsrc, State.busRead_of_reg _ hlen, State.busRead_of_reg _ hdst]
  exact ⟨rfl, rfl, rfl, setWidth_extractLsb'_zero v 12, setWidth_extractLsb'_zero v 13,
    setWidth_extractLsb'_zero v 12⟩

/-- Settles O49: the register map is read off offset by offset. -/
theorem readOnlyRegisters : Obligations.ReadOnlyRegisters := by
  refine ⟨fun s => ?_, fun s v => ?_, by decide⟩
  · have read {off : Offset} {r : DevReg} (d : Word) (h : accessTarget off .b32 = some (.reg r))
        (hd : s.readReg r = d) : s.busRead off .b32 = ⟨.okay, d, s⟩ := hd ▸ s.busRead_of_reg h
    have hie : s.readReg .ctrl = if s.ie then 1 else 0 := by
      cases h : s.ie <;> simp [State.readReg, h]
    have hstatus : s.readReg .status
        = BitVec.ofNat 32 (s.busy.toNat + 2 * s.done.toNat + 4 * s.err.toNat + 8 * s.werr.toNat) := by
      rw [← s.toNat_statusWord, BitVec.ofNat_toNat, BitVec.setWidth_eq]; rfl
    exact ⟨read _ (r := .id) (by decide) rfl, read _ (r := .cap) (by decide) rfl,
      read _ (r := .ctrl) (by decide) hie, read _ (r := .status) (by decide) hstatus,
      read _ (r := .cmd) (by decide) rfl, read _ (r := .result) (by decide) rfl,
      read _ (r := .errcode) (by decide) rfl, read _ (r := .src) (by decide) rfl,
      read _ (r := .len) (by decide) rfl, read _ (r := .dst) (by decide) rfl,
      read _ (r := .gdeg) (by decide) rfl, read _ (r := .geom0) (by decide) rfl,
      read _ (r := .geom1) (by decide) rfl, read _ (r := .etot) (by decide) rfl,
      fun i => read _ (accessTarget_gen i) rfl⟩
  · have ignored (r : DevReg) {off : Offset} (hr : r.closedWhileBusy = false) (hs : s.writeReg r v = s)
        (h : accessTarget off .b32 = some (.reg r)) : s.busWrite off .b32 v = ⟨.okay, 0, s⟩ := by
      rw [s.busWrite_of_reg v h (.inr hr), hs]
    refine ⟨?_, fun i => ignored (.gen i) rfl rfl (accessTarget_gen i)⟩
    simp only [List.forall_mem_cons]
    exact ⟨ignored .id rfl rfl (by decide), ignored .cap rfl rfl (by decide), ignored .result rfl rfl (by decide),
      ignored .errcode rfl rfl (by decide), ignored .gdeg rfl rfl (by decide), ignored .geom0 rfl rfl (by decide),
      ignored .geom1 rfl rfl (by decide), ignored .etot rfl rfl (by decide), nofun⟩

end Sys2Proof.Machine
end

section
/-!
PROOF. Proofs/FieldTables.lean: EXP and LOG are inverse to each other (10_state.md R36, R37), so GF_LOG gives the one
exponent of its element (40_gf_arith.md R108).
-/
namespace Sys2Proof.Machine

/-- The element of every exponent has that exponent as its logarithm (R37). -/
theorem logRom_expRom : ∀ i < 255, logRom (expRom i) = i := by decide +kernel

/-- Every non-zero element has an exponent below 255, whose power it is (R36, R37). -/
theorem logRom_lt_and_expRom_logRom : ∀ a : Byte, a ≠ 0 → logRom a < 255 ∧ expRom (logRom a) = a := by
  decide +kernel

/-- Settles O18: the meaning of GF_LOG, and the exponent by the two tables being inverse. -/
theorem gfLogCompletes : Obligations.GfLogCompletes := by
  intro a s ha
  obtain ⟨hlt, hexp⟩ := logRom_lt_and_expRom_logRom a ha
  have meaning : exec (.gfLog a) s = .next (s.completeWith (BitVec.ofNat 8 (logRom a))) :=
    congrArg Host.Outcome.next (if_neg ha)
  exact ⟨meaning, by omega, hexp, fun i hi h => by rw [← h, logRom_expRom i (by omega)]⟩

end Sys2Proof.Machine
end

section
/-!
PROOF. Proofs/CommandEndings.lean: the ways a command can end, once for all eight commands (60_exceptions.md R160 to R162),
and the three commands that compute: what GEN and GDEG hold after one (41_generator.md R119), RS_BLOCK completed
(42_rs_encode.md R132), and RS_ENCODE's row and its failed checks (R135 to R139).
-/
namespace Sys2Proof.Machine

/-! ## The ways a command ends -/

/-- The commands whose result goes to RESULT (R103). -/
def writesResult : Instr → Bool
  | .gfAdd _ _ => true
  | .gfMul _ _ => true
  | .gfDiv _ _ => true
  | .gfExp _ => true
  | .gfLog _ => true
  | .genPoly _ => false
  | .rsBlock _ => false
  | .rsEncode _ _ => false

/-- Command i, run in state s, may end in the given state: with an error, or with what its success commits (R161, R162). -/
inductive EndsIn (s : State) : Instr → State → Prop where
  | failed (i : Instr) (c : ErrCode) : EndsIn s i (s.raiseError c)
  | value (i : Instr) (hi : writesResult i = true) (v : Byte) : EndsIn s i (s.completeWith v)
  | generator (n : Byte) (hn : degreeError n = none) : EndsIn s (.genPoly n) (s.setGenerator n.toNat).complete
  | block (n : Byte) (hn : s.blockError n = none) : EndsIn s (.rsBlock n) (s.commitBlock n.toNat)
  | encode (v : Byte) (e : EcLevel) (r : CapRow) (hr : s.capRow v e = some r) (hc : s.rowError r = none) :
      EndsIn s (.rsEncode v e) (s.commitEncode r)

/-- A GF command whose operand is checked first ends with the error or with its value. -/
theorem EndsIn.ofCheck {s : State} {i : Instr} (hi : writesResult i = true) (bad : Prop) [Decidable bad] (c : ErrCode)
    (v : Byte) : EndsIn s i (if bad then s.raiseError c else s.completeWith v) := by
  split
  · exact .failed i c
  · exact .value i hi v

/-- Every command ends in one of these ways. -/
theorem exec_endsIn {i : Instr} {s t : State} (h : exec i s = .next t) : EndsIn s i t := by
  cases i with
  | gfAdd a b => cases h; exact .value _ rfl _
  | gfMul a b => cases h; exact .value _ rfl _
  | gfDiv a b => cases h; exact .ofCheck rfl (b = 0) .divZero _
  | gfExp a => cases h; exact .value _ rfl _
  | gfLog a => cases h; exact .ofCheck rfl (a = 0) .logZero _
  | genPoly n =>
    cases h
    cases hd : degreeError n with
    | some c => exact .failed _ c
    | none => exact .generator n hd
  | rsBlock n =>
    rcases execRsBlock_cases n s with ⟨c, -, he⟩ | ⟨hn, he⟩ <;> cases h.symm.trans he
    · exact .failed _ c
    · exact .block n hn
  | rsEncode v e =>
    rcases execRsEncode_cases v e s with ⟨-, he⟩ | ⟨-, c, -, -, he⟩ | ⟨r, hr, hc, he⟩ <;> cases h.symm.trans he
    · exact .failed _ .invalidVersion
    · exact .failed _ c
    · exact .encode v e r hr hc

/-- Every command that has ended has cleared BUSY, set DONE and left IE alone (R160). -/
theorem EndsIn.flags {s t : State} {i : Instr} (h : EndsIn s i t) :
    t.busy = false ∧ t.done = true ∧ t.ie = s.ie := by
  cases h <;> simp

/-! ## The generator registers -/

/-- A legal degree is 1 to 30 (R118). -/
theorem degreeError_eq_none {n : Byte} : degreeError n = none ↔ 1 ≤ n.toNat ∧ n.toNat ≤ 30 := by
  unfold degreeError Config.nmax
  split <;> simp <;> omega

/-- The leading coefficient after a product with a linear factor is the leading coefficient before. -/
theorem getLast?_mulLinear (c prev : Byte) (gs : List Byte) :
    (mulLinear c prev gs).getLast? = some (gs.getLastD prev) := by
  induction gs generalizing prev with
  | nil => rfl
  | cons g gs ih => rw [mulLinear, List.getLast?_cons, ih g, List.getLastD_cons]; rfl

/-- The generator is monic (R116, R119). -/
theorem coeff_genPoly_self (n : Nat) : coeff (genPoly n) n = 1 := by
  have last : (genPoly n).getLast? = some 1 := by
    induction n with
    | zero => rfl
    | succ n ih => rw [genPoly, getLast?_mulLinear, List.getLastD_eq_getLast?, ih]; rfl
  rw [List.getLast?_eq_getElem?, length_genPoly, Nat.add_sub_cancel] at last
  rw [coeff, List.getD_eq_getElem?_getD, last]; rfl

/-- The state's generator registers are those of degree n. -/
def State.HoldsGenerator (t : State) (n : Nat) : Prop :=
  t.gen = genRegisters n ∧ t.gdeg = BitVec.ofNat 6 n

/-- What GEN and GDEG read when they hold the generator of a legal degree (R32, R38, R119). -/
theorem State.HoldsGenerator.registers {t : State} {n : Nat} (h : t.HoldsGenerator n) (h1 : 1 ≤ n) (h30 : n ≤ 30) :
    1 ≤ t.gdeg.toNat ∧ t.gdeg.toNat ≤ 30 ∧
      (∀ j : Fin 32, t.gen.get j = if j.val ≤ t.gdeg.toNat then coeff (genPoly t.gdeg.toNat) j.val else 0) ∧
      coeff (genPoly t.gdeg.toNat) t.gdeg.toNat = 1 := by
  obtain ⟨hgen, hdeg⟩ := h
  have hn : t.gdeg.toNat = n := by rw [hdeg, BitVec.toNat_ofNat]; omega
  rw [hn, hgen]
  exact ⟨h1, h30, genRegisters_get n, coeff_genPoly_self n⟩

/-- Settles O24: each success of the three commands sets the generator of a legal degree. -/
theorem generatorRegistersHoldPolynomial : Obligations.GeneratorRegistersHoldPolynomial := by
  intro i s t hi h h0
  cases exec_endsIn h with
  | failed _ c => exact absurd h0 c.code_ne_zero
  | value _ hv v =>
    cases i with
    | genPoly _ | rsBlock _ | rsEncode _ _ => cases hv
    | _ => exact hi.elim
  | generator n hn =>
    obtain ⟨h1, h30⟩ := degreeError_eq_none.mp hn
    exact State.HoldsGenerator.registers ⟨rfl, rfl⟩ h1 h30
  | block n hn =>
    obtain ⟨h1, h30, -⟩ := State.blockError_none.mp hn
    exact State.HoldsGenerator.registers ⟨s.commitBlock_gen _, s.commitBlock_gdeg _⟩ h1 h30
  | encode v e r hr hc =>
    obtain ⟨-, -, h1, h30, -⟩ := (CapRow.valid_iff r).mp (State.rowError_none.mp hc).1
    exact State.HoldsGenerator.registers ⟨s.commitEncode_gen r, s.commitEncode_gdeg r⟩ h1 h30

/-! ## RS_BLOCK completed -/

/-- An RS_BLOCK that passes its checks commits (R132). -/
theorem exec_rsBlock_of_passed {n : Byte} {s : State} (h : s.blockError n = none) :
    exec (.rsBlock n) s = .next (s.commitBlock n.toNat) := by
  simp [exec, execRsBlock, h]

/-- Settles O29: the checks pass, and the commit writes the n codewords at the destination. -/
theorem rsBlockCompletes : Obligations.RsBlockCompletes := by
  intro n s h1 h30 hsrc hdst hdisj
  have passed : s.blockError n = none := State.blockError_none.mpr ⟨h1, h30, hsrc, hdst, hdisj⟩
  refine ⟨_, _, (exec_rsBlock_of_passed passed).trans (congrArg _ (s.commitBlock_eq _)), length_rsRem _ _,
    fun i hi => ?_, fun a ha => ?_, fun x => s.mem_recordUninit_faults _ _ x⟩
  · rw [Mem.lookup_insertAll, length_rsRem, if_pos (by omega), Nat.add_sub_cancel_left]
  · rw [Mem.lookup_insertAll, length_rsRem, if_neg (by omega)]

/-! ## RS_ENCODE: its row and its failed checks -/

/-- A version in 1..40 has an entry of CAPTABLE, whose row at the level is the command's (R41, R135). -/
theorem State.exists_capRow (s : State) {v : Byte} (h1 : 1 ≤ v.toNat) (h40 : v.toNat ≤ 40) (e : EcLevel) :
    ∃ rows, s.capTable[v.toNat - 1]? = some rows ∧ s.capRow v e = some (rows.row e) := by
  have entry := Vector.getElem?_eq_getElem (xs := s.capTable) (i := v.toNat - 1) (by omega)
  exact ⟨_, entry, State.capRow_of_entry h1 entry e⟩

/-- Without a row RS_ENCODE fails with INVALID_VERSION (R139). -/
theorem exec_rsEncode_of_no_row {v : Byte} {e : EcLevel} {s : State} (h : s.capRow v e = none) :
    exec (.rsEncode v e) s = .next (s.raiseError .invalidVersion) := by
  simp [exec, execRsEncode, h]

/-- An RS_ENCODE whose row fails a check ends with that error (R139). -/
theorem exec_rsEncode_of_failed {v : Byte} {e : EcLevel} {s : State} {r : CapRow} {c : ErrCode}
    (hr : s.capRow v e = some r) (hc : s.rowError r = some c) :
    exec (.rsEncode v e) s = .next (s.raiseError c) := by
  simp [exec, execRsEncode, hr, hc]

/-- An RS_ENCODE whose row passes its checks commits (R139). -/
theorem exec_rsEncode_of_passed {v : Byte} {e : EcLevel} {s : State} {r : CapRow}
    (hr : s.capRow v e = some r) (hc : s.rowError r = none) :
    exec (.rsEncode v e) s = .next (s.commitEncode r) := by
  simp [exec, execRsEncode, hr, hc]

/-- Past the length check only the ranges are left to check (R153). -/
theorem State.rowError_of_length {s : State} {r : CapRow} (hv : r.valid = true) (hl : s.len.toNat = r.ktot) :
    s.rowError r = s.rangeError r.ktot r.etot := by
  simp [State.rowError, hv, hl]

/-- A range past the end of CWMEM is ADDR_RANGE (R131, R137). -/
theorem State.rangeError_of_outside {s : State} {k m : Nat}
    (h : 4096 < s.src.toNat + k ∨ 4096 < s.dst.toNat + m) : s.rangeError k m = some .addrRange := if_pos h

/-- Two ranges inside CWMEM with a shared byte are REGION_OVERLAP (R133, R138). -/
theorem State.rangeError_of_overlap {s : State} {k m : Nat} (hsrc : s.src.toNat + k ≤ 4096)
    (hdst : s.dst.toNat + m ≤ 4096) (hsd : s.src.toNat < s.dst.toNat + m) (hds : s.dst.toNat < s.src.toNat + k)
    (hk : 0 < k) : s.rangeError k m = some .regionOverlap := by
  unfold State.rangeError Config.cwmemBytes
  rw [if_neg (by omega), if_pos ⟨hk, hsd, hds⟩]

/-- A valid row has data codewords (R41). -/
theorem ktot_pos_of_valid {r : CapRow} (h : r.valid = true) : 0 < r.ktot := by
  obtain ⟨hc, hk, -⟩ := (CapRow.valid_iff r).mp h
  exact Nat.lt_of_lt_of_le (Nat.mul_pos hc hk) (Nat.le_add_right _ _)

/-- Settles O32: the row of the version, then the first check that fails gives the error. -/
theorem rsEncodeErrors : Obligations.RsEncodeErrors := by
  refine ⟨fun r => ⟨?_, rfl, rfl⟩, fun v e s => ⟨fun hv => ?_, fun h1 h40 => ?_⟩⟩
  · rw [CapRow.valid_iff r, ← BitVec.toNat_inj]; rfl
  · have noRow : s.capRow v e = none := State.capRow_eq_none.mpr hv
    exact ⟨noRow, exec_rsEncode_of_no_row noRow⟩
  · obtain ⟨rows, entry, hr⟩ := s.exists_capRow h1 h40 e
    refine ⟨rows, rows.row e, entry, by cases e <;> rfl, hr, fun hv => ?_, fun hv hl => ?_, fun hv hl ho => ?_,
      fun hv hl hsrc hdst hsd hds => ?_⟩
    · exact exec_rsEncode_of_failed hr (c := .tableFault) (by simp [State.rowError, hv])
    · exact exec_rsEncode_of_failed hr (c := .lengthMismatch) (by simp [State.rowError, hv, hl])
    · exact exec_rsEncode_of_failed hr ((State.rowError_of_length hv hl).trans (State.rangeError_of_outside ho))
    · exact exec_rsEncode_of_failed hr ((State.rowError_of_length hv hl).trans
        (State.rangeError_of_overlap hsrc hdst hsd hds (ktot_pos_of_valid hv)))

end Sys2Proof.Machine
end

section
/-!
PROOF. Proofs/BlockLayout.lean: where the EC codewords of each block of a symbol stand (42_rs_encode.md R139, R141, R143):
block j's data are the K_j codewords at SRC + off_j, and its EC codewords the n ones from DST + j × n.
-/
namespace Sys2Proof.Machine

/-- EC codeword i of block j, among those of consecutive blocks, is computed from the data left after the blocks
before it (R141, R143). -/
theorem encodeBlocks_getElem? (n : Nat) {ks : List Nat} (ds : List Byte) {j k i : Nat} (hk : ks[j]? = some k)
    (hi : i < n) :
    (encodeBlocks n ks ds)[j * n + i]? = (rsRem ((ds.drop (ks.take j).sum).take k) n)[i]? := by
  induction ks generalizing j ds with
  | nil => simp at hk
  | cons k₀ ks ih =>
    rw [encodeBlocks]
    cases j with
    | zero =>
      obtain rfl : k₀ = k := by simpa using hk
      rw [List.getElem?_append_left (by simpa using hi)]
      simp
    | succ j =>
      rw [List.getElem?_append_right (by rw [length_rsRem, Nat.succ_mul]; omega), length_rsRem,
        show (j + 1) * n + i - n = j * n + i by rw [Nat.succ_mul]; omega, ih _ (by simpa using hk)]
      simp [List.drop_drop]

/-- Block j has K_j data codewords (R141). -/
theorem blockLengths_getElem? {r : CapRow} {j : Nat} (hj : j < r.nblk) :
    (blockLengths r)[j]? = some (blockLength r j) := by
  unfold CapRow.nblk at hj
  unfold blockLengths blockLength
  by_cases h : j < r.g1c.toNat
  · rw [List.getElem?_append_left (by simpa using h), if_pos h, List.getElem?_replicate, if_pos h]
  · rw [List.getElem?_append_right (by simpa using h), if_neg h, List.getElem?_replicate, List.length_replicate,
      if_pos (by omega)]

/-- The blocks before block j hold off_j data codewords (R141). -/
theorem sum_take_blockLengths {r : CapRow} {j : Nat} (hj : j < r.nblk) :
    ((blockLengths r).take j).sum = blockOffset r j := by
  unfold CapRow.nblk at hj
  unfold blockLengths blockOffset
  by_cases h : j < r.g1c.toNat
  · simp [List.take_append, h, Nat.min_eq_left (Nat.le_of_lt h), Nat.sub_eq_zero_of_le (Nat.le_of_lt h)]
  · have h' : r.g1c.toNat ≤ j := Nat.le_of_not_lt h
    simp [List.take_append, h, Nat.min_eq_right h', Nat.min_eq_left (show j - r.g1c.toNat ≤ r.g2c.toNat by omega)]

/-- The blocks hold KTOT data codewords together (R41, R144). -/
theorem sum_blockLengths (r : CapRow) : (blockLengths r).sum = r.ktot := by
  simp [blockLengths, CapRow.ktot]

/-- Each block's data lie among the KTOT data codewords (R141). -/
theorem blockOffset_add_blockLength_le {r : CapRow} {j : Nat} (hj : j < r.nblk) :
    blockOffset r j + blockLength r j ≤ r.ktot := by
  have next : ((blockLengths r).take (j + 1)).sum = blockOffset r j + blockLength r j := by
    rw [List.take_add_one, blockLengths_getElem? hj, List.sum_append, sum_take_blockLengths hj]
    simp
  have total := congrArg List.sum (List.take_append_drop (j + 1) (blockLengths r))
  rw [List.sum_append, next, sum_blockLengths] at total
  omega

/-- A part of a range read is the range read from there. -/
theorem State.take_drop_cwRange (s : State) (start : Nat) {k o l : Nat} (h : o + l ≤ k) :
    ((s.cwRange start k).drop o).take l = s.cwRange (start + o) l := by
  apply List.ext_getElem?
  intro i
  rw [List.getElem?_take, List.getElem?_drop, s.cwRange_getElem?, s.cwRange_getElem?]
  by_cases hi : i < l
  · rw [if_pos hi, if_pos (by omega), if_pos hi, Nat.add_assoc]
  · rw [if_neg hi, if_neg hi]

/-- Codeword i of block j stands at j × NEC + i of the EC area (R143). -/
theorem mul_add_lt_etot {r : CapRow} {j i : Nat} (hj : j < r.nblk) (hi : i < r.nec.toNat) :
    j * r.nec.toNat + i < r.etot :=
  calc j * r.nec.toNat + i < (j + 1) * r.nec.toNat := by rw [Nat.succ_mul]; omega
    _ ≤ r.etot := Nat.mul_le_mul_right _ hj

/-- What a successful RS_ENCODE leaves at the place of EC codeword i of block j (R139, R141, R143). -/
theorem State.lookup_commitEncode_codeword (s : State) {r : CapRow} {j i : Nat} (hj : j < r.nblk)
    (hi : i < r.nec.toNat) :
    (s.commitEncode r).mem.lookup (s.dst.toNat + j * r.nec.toNat + i)
      = (rsRem (s.cwRange (s.src.toNat + blockOffset r j) (blockLength r j)) r.nec.toNat)[i]? := by
  have inside := mul_add_lt_etot hj hi
  rw [State.commitEncode_mem, Mem.lookup_insertAll, length_encodeBlocks, length_blockLengths,
    if_pos ⟨by omega, by rw [Nat.add_assoc]; exact Nat.add_lt_add_left inside _⟩,
    Nat.add_assoc, Nat.add_sub_cancel_left, encodeBlocks_getElem? _ _ (blockLengths_getElem? hj) hi,
    sum_take_blockLengths hj, State.take_drop_cwRange _ _ (blockOffset_add_blockLength_le hj)]

/-- A successful RS_ENCODE keeps every byte outside its destination (R142, R145). -/
theorem State.lookup_commitEncode_outside (s : State) {r : CapRow} {a : Nat}
    (ha : a < s.dst.toNat ∨ s.dst.toNat + r.etot ≤ a) :
    (s.commitEncode r).mem.lookup a = s.mem.lookup a := by
  rw [State.commitEncode_mem, Mem.lookup_insertAll, length_encodeBlocks, length_blockLengths]
  exact if_neg fun ⟨h1, h2⟩ => ha.elim (by omega) (fun h => absurd h2 (Nat.not_lt.mpr h))

/-- Settles O31: the version's entry gives the row, its checks pass, and the commit writes block after block. -/
theorem rsEncodeCompletes : Obligations.RsEncodeCompletes := by
  intro v e s rows r h1 entry hr hvalid hlen hsrc hdst hdisj
  have row : s.capRow v e = some r := by
    rw [State.capRow_of_entry h1 entry, hr]; cases e <;> rfl
  have passed : s.rowError r = none := State.rowError_none.mpr ⟨hvalid, hlen, hsrc, hdst, .inr hdisj⟩
  refine ⟨(s.commitEncode r).mem, (s.commitEncode r).faults, ?_, fun j hj => ⟨length_rsRem _ _, fun i hi => ?_⟩,
    fun a ha => s.lookup_commitEncode_outside ha, fun x => ?_⟩
  · rw [exec_rsEncode_of_passed row passed, State.commitEncode_mem, State.commitEncode_faults, State.commitEncode_eq]
  · exact s.lookup_commitEncode_codeword hj hi
  · rw [State.commitEncode_faults]
    exact s.mem_recordUninit_faults _ _ x

end Sys2Proof.Machine
end

section
/-!
PROOF. Proofs/Geometry.lean: the geometry registers as numbers (10_state.md R33 to R35): what RS_ENCODE writes there of its
row, as the register reads and as the fields of the invariant.
-/
namespace Sys2Proof.Machine

/-- GEOM0 of a row as a number (R33). -/
theorem toNat_geom0_fields (r : CapRow) :
    (r.g2k ++ r.g2c ++ r.g1k ++ r.g1c : Word).toNat
      = r.g1c.toNat + r.g1k.toNat * 2 ^ 8 + r.g2c.toNat * 2 ^ 16 + r.g2k.toNat * 2 ^ 24 := by
  simp only [toNat_append_eq_add]
  omega

/-- GEOM1 of a valid row as a number: NBLK and KTOT fit their fields (R34, R41). -/
theorem toNat_geom1_fields {r : CapRow} (hv : r.valid = true) :
    (BitVec.ofNat 13 r.ktot ++ BitVec.ofNat 8 r.nblk ++ r.nec : BitVec 29).toNat
      = r.nec.toNat + r.nblk * 2 ^ 8 + r.ktot * 2 ^ 16 := by
  obtain ⟨-, -, -, -, -, hblk, hktot, -⟩ := (CapRow.valid_iff r).mp hv
  simp only [toNat_append_eq_add, BitVec.toNat_ofNat]
  omega

/-- ETOT of a valid row fits its field (R35, R41). -/
theorem toNat_etot_field {r : CapRow} (hv : r.valid = true) :
    (BitVec.ofNat 13 r.etot).toNat = r.nblk * r.nec.toNat := by
  obtain ⟨-, -, -, -, -, -, -, hetot⟩ := (CapRow.valid_iff r).mp hv
  exact BitVec.toNat_ofNat r.etot 13 ▸ Nat.mod_eq_of_lt (by omega)

/-- Settles O34: the three offsets are GEOM0, GEOM1 and ETOT, which a successful RS_ENCODE writes from its valid row. -/
theorem geometryRegistersRead : Obligations.GeometryRegistersRead := by
  intro v e s t h h0
  cases exec_endsIn h with
  | failed _ c => exact absurd h0 c.code_ne_zero
  | value _ hv _ => cases hv
  | encode _ _ r hr hc =>
    have hv := (State.rowError_none.mp hc).1
    refine ⟨r, hr, ?_, ?_, ?_⟩
    · rw [State.busRead_of_reg (r := .geom0) _ (by decide), State.readReg, State.commitEncode_geom0]
      exact toNat_geom0_fields r
    · rw [State.busRead_of_reg (r := .geom1) _ (by decide), State.readReg, State.commitEncode_geom1,
        BitVec.toNat_setWidth_of_le (by decide)]
      exact toNat_geom1_fields hv
    · rw [State.busRead_of_reg (r := .etot) _ (by decide), State.readReg, State.commitEncode_etot,
        BitVec.toNat_setWidth_of_le (by decide)]
      exact toNat_etot_field hv

/-! ## The fields the invariant speaks of -/

/-- The fields of GEOM0 after RS_ENCODE writes it (R33). -/
theorem State.geom0_fields_setGeometry (s : State) (r : CapRow) :
    (s.setGeometry r).geomG1c = r.g1c.toNat ∧ (s.setGeometry r).geomG1k = r.g1k.toNat ∧
      (s.setGeometry r).geomG2c = r.g2c.toNat ∧ (s.setGeometry r).geomG2k = r.g2k.toNat := by
  simp only [State.geomG1c, State.geomG1k, State.geomG2c, State.geomG2k, State.setGeometry_geom0,
    BitVec.extractLsb'_toNat, Nat.shiftRight_eq_div_pow, toNat_geom0_fields]
  omega

/-- The fields of GEOM1 after RS_ENCODE writes it from a valid row (R34). -/
theorem State.geom1_fields_setGeometry (s : State) {r : CapRow} (hv : r.valid = true) :
    (s.setGeometry r).geomNec = r.nec.toNat ∧ (s.setGeometry r).geomNblk = r.nblk ∧
      (s.setGeometry r).geomKtot = r.ktot := by
  obtain ⟨-, -, -, -, -, hblk, hktot, -⟩ := (CapRow.valid_iff r).mp hv
  simp only [State.geomNec, State.geomNblk, State.geomKtot, State.setGeometry_geom1,
    BitVec.extractLsb'_toNat, Nat.shiftRight_eq_div_pow, toNat_geom1_fields hv]
  omega

end Sys2Proof.Machine
end

section
/-!
PROOF. Proofs/Invariant.lean: the invariant of the machine holds at reset and every step keeps it. Each operation a step is
made of keeps it, and for each only the clauses it touches have a proof of their own.
-/
namespace Sys2Proof.Machine

/-- "ERRCODE values 10 to 15 are never produced" (R152). -/
theorem ErrCode.toNat_code_le (c : ErrCode) : c.code.toNat ≤ 9 := by
  cases c <;> decide

section
variable {s t : State} (h : s.Inv)
include h

/-! ## The engine's operations -/

/-- A command that fails leaves its code beside ERR (R162). -/
theorem State.Inv.raiseError (c : ErrCode) : (s.raiseError c).Inv :=
  { h with code := c.toNat_code_le, error := fun _ => c.code_ne_zero, pending := nofun }

/-- A command that succeeds while it was latched leaves ERR = 0, as its acceptance did (R156, R161). -/
theorem State.Inv.complete (herr : s.err = false) : s.complete.Inv :=
  { h with
    code := Nat.zero_le 9
    error := fun he => absurd (herr.symm.trans he) Bool.false_ne_true
    pending := nofun }

theorem State.Inv.completeWith (herr : s.err = false) (v : Byte) : (s.completeWith v).Inv :=
  { h.complete herr with }

/-- GEN and GDEG take the generator of a degree in 1..NMAX together (R32, R38). -/
theorem State.Inv.setGenerator {n : Nat} (h1 : 1 ≤ n) (h30 : n ≤ 30) : (s.setGenerator n).Inv := by
  have hn : (BitVec.ofNat 6 n).toNat = n := by rw [BitVec.toNat_ofNat]; omega
  have hne : BitVec.ofNat 6 n ≠ 0 := fun h0 => by rw [h0] at hn; exact absurd hn (by simp; omega)
  exact { h with
    degree := by rw [State.setGenerator_gdeg, hn]; exact h30
    generator := by rw [State.setGenerator_gen, State.setGenerator_gdeg, if_neg hne, hn] }

/-- The geometry registers take the fields of one valid row (R33 to R35). -/
theorem State.Inv.setGeometry {r : CapRow} (hv : r.valid = true) : (s.setGeometry r).Inv := by
  obtain ⟨hg1c, hg1k, hg2c, hg2k⟩ := s.geom0_fields_setGeometry r
  obtain ⟨hnec, hnblk, hktot⟩ := s.geom1_fields_setGeometry hv
  exact { h with
    blocks := by rw [hnblk, hg1c, hg2c]; rfl
    dataTotal := by rw [hktot, hg1c, hg1k, hg2c, hg2k]; rfl
    ecTotal := by rw [State.setGeometry_etot, toNat_etot_field hv, hnblk, hnec] }

/-- Bytes written inside CWMEM keep it canonical (R39). -/
theorem State.Inv.writeCw {a : Nat} {vs : List Byte} (ha : a + vs.length ≤ 4096) : (s.writeCw a vs).Inv :=
  { h with memory := Mem.wf_insertAll vs h.memory ha }

theorem State.Inv.recordUninit (start k : Nat) : (s.recordUninit start k).Inv :=
  { h with faultSet := State.nodup_recordUninit h.faultSet start k }

theorem State.Inv.recordReserved (off : Offset) : (s.recordReserved off).Inv :=
  { h with faultSet := nodup_addFault h.faultSet _ }

/-- A successful RS_BLOCK: the destination lies inside CWMEM and the degree is legal (R132). -/
theorem State.Inv.commitBlock {n : Byte} (herr : s.err = false) (hn : s.blockError n = none) :
    (s.commitBlock n.toNat).Inv := by
  obtain ⟨h1, h30, -, hdst, -⟩ := State.blockError_none.mp hn
  exact (((h.recordUninit _ _).writeCw (by simpa using hdst)).setGenerator h1 h30).complete herr

/-- A successful RS_ENCODE: the destination lies inside CWMEM and the row is valid (R139). -/
theorem State.Inv.commitEncode {r : CapRow} (herr : s.err = false) (hc : s.rowError r = none) :
    (s.commitEncode r).Inv := by
  obtain ⟨hv, -, -, hdst, -⟩ := State.rowError_none.mp hc
  obtain ⟨-, -, h1, h30, -⟩ := (CapRow.valid_iff r).mp hv
  have written := (h.recordUninit s.src.toNat r.ktot).writeCw (a := s.dst.toNat)
    (vs := encodeBlocks r.nec.toNat (blockLengths r) (s.cwRange s.src.toNat r.ktot)) (by simpa [CapRow.etot] using hdst)
  exact ((written.setGenerator h1 h30).setGeometry hv).complete herr

/-- Every way a latched command ends keeps the invariant. -/
theorem State.Inv.endsIn {i : Instr} (hbusy : s.busy = true) (ht : EndsIn s i t) : t.Inv := by
  obtain ⟨-, herr, -⟩ := h.pending hbusy
  cases ht with
  | failed _ c => exact h.raiseError c
  | value _ _ v => exact h.completeWith herr v
  | generator n hn =>
    obtain ⟨h1, h30⟩ := degreeError_eq_none.mp hn
    exact (h.setGenerator h1 h30).complete herr
  | block n hn => exact h.commitBlock herr hn
  | encode v e r _ hc => exact h.commitEncode herr hc

/-- The engine's turn keeps the invariant. -/
theorem State.Inv.engineStep (ht : engineStep s = .next t) : t.Inv := by
  rcases engineStep_cases s with ⟨-, he⟩ | ⟨hb, i, -, he⟩ | ⟨-, _, -, he⟩
  · cases he.symm.trans ht; exact h
  · exact h.endsIn hb (exec_endsIn (he.symm.trans ht))
  · cases he.symm.trans ht; exact h.raiseError _

/-! ## The host's operations -/

theorem State.Inv.setWerr : s.setWerr.Inv := { h with }

/-- Acceptance sets the flags of a running command (R156). -/
theorem State.Inv.accept (w : Word) : (s.accept w).Inv :=
  { h with code := Nat.zero_le 9, error := nofun, pending := fun _ => ⟨rfl, rfl, rfl⟩ }

/-- A write to STATUS only clears flags (R25). -/
theorem State.Inv.writeStatus (v : Word) : (s.writeStatus v).Inv :=
  { h with
    error := fun he => h.error (Bool.and_eq_true_iff.mp he).1
    pending := fun hb => by
      obtain ⟨hdone, herr, hcode⟩ := h.pending hb
      exact ⟨by simp [State.writeStatus, hdone], by simp [State.writeStatus, herr], hcode⟩ }

/-- A soft reset zeroes every register; an abort only takes bytes out of CWMEM (R184, R185). -/
theorem State.Inv.softReset : s.softReset.Inv where
  memory := State.abortLatched_mem_wf h.memory
  degree := Nat.zero_le _
  generator := rfl
  code := Nat.zero_le _
  error := nofun
  pending := nofun
  blocks := by simp [State.geomNblk, State.geomG1c, State.geomG2c]
  dataTotal := by simp [State.geomKtot, State.geomG1c, State.geomG2c]
  ecTotal := rfl
  faultSet := s.softReset_faults ▸ h.faultSet

theorem State.Inv.writeCtrl (v : Word) : (s.writeCtrl v).Inv := by
  unfold State.writeCtrl
  split
  · exact h.softReset
  · exact { h with }

theorem State.Inv.writeReg (r : DevReg) (v : Word) : (s.writeReg r v).Inv := by
  cases r with
  | ctrl => exact h.writeCtrl v
  | status => exact h.writeStatus v
  | cmd => exact h.accept v
  | src | len | dst => exact { h with }
  | _ => exact h

theorem State.Inv.busWrite (off : Offset) (w : AccessWidth) (v : Word) : (s.busWrite off w v).state.Inv := by
  rcases s.busWrite_cases off w v with e | ⟨r, -, -, e⟩ | e | ⟨-, -, a, vs, ha, e⟩ <;> rw [e]
  · exact h.setWerr
  · exact h.writeReg r v
  · exact h.recordReserved off
  · exact h.writeCw ha

theorem State.Inv.busRead (off : Offset) (w : AccessWidth) : (s.busRead off w).state.Inv := by
  rcases s.busRead_state off w with e | ⟨-, e | e | ⟨a, k, e⟩⟩ <;> rw [e]
  · exact h.setWerr
  · exact h
  · exact h.recordReserved off
  · exact h.recordUninit a k

/-- The invariant speaks of no field of the host. -/
theorem State.Inv.hostExec (op : HostOp) : (s.hostExec op).Inv := by
  cases op with
  | write off w v => exact { h.busWrite off w v with }
  | read off w k => exact { h.busRead off w with }
  | bz | bnz | halt => exact { h with }

theorem State.Inv.hostStep : s.hostStep.Inv := by
  unfold State.hostStep
  split
  · exact h.hostExec _
  · exact h

theorem State.Inv.takeTurn : s.takeTurn.Inv := { h with }

end

/-- Settles O56: at reset no byte is defined, every register is 0 and no fault is recorded. -/
theorem resetMeetsInvariant : Obligations.ResetMeetsInvariant where
  memory := Mem.wf_nil
  degree := Nat.zero_le _
  generator := rfl
  code := Nat.zero_le _
  error := nofun
  pending := nofun
  blocks := rfl
  dataTotal := rfl
  ecTotal := rfl
  faultSet := List.nodup_nil

/-- Settles O57: a step is the turn of the engine or of the host, and both keep the invariant. -/
theorem stepKeepsInvariant : Obligations.StepKeepsInvariant := by
  intro s t h hstep
  rcases step_cases hstep with ⟨-, he⟩ | ⟨-, rfl⟩
  · exact h.takeTurn.engineStep he
  · exact h.takeTurn.hostStep

end Sys2Proof.Machine
end

section
/-!
PROOF. Proofs/Frames.lean: what no step changes, and what only some steps change: the machine's constants (10_state.md R49),
and CWMEM, which three events change (R39, R40, 70_reset_and_hazards.md R185).
-/
namespace Sys2Proof.Machine

/-! ## The constants -/

/-- The constants of t are those of s: CAPTABLE and the host's program. -/
def State.SameConstants (s t : State) : Prop := t.capTable = s.capTable ∧ t.hostProg = s.hostProg

theorem EndsIn.sameConstants {s t : State} {i : Instr} (h : EndsIn s i t) : s.SameConstants t := by
  cases h <;> simp [State.SameConstants]

theorem engineStep_sameConstants {s t : State} (h : engineStep s = .next t) : s.SameConstants t := by
  rcases engineStep_cases s with ⟨-, he⟩ | ⟨-, i, -, he⟩ | ⟨-, _, -, he⟩
  · cases he.symm.trans h; exact ⟨rfl, rfl⟩
  · exact (exec_endsIn (he.symm.trans h)).sameConstants
  · cases he.symm.trans h; exact ⟨rfl, rfl⟩

theorem State.writeReg_sameConstants (s : State) (r : DevReg) (v : Word) : s.SameConstants (s.writeReg r v) := by
  cases r with
  | ctrl =>
    simp only [State.writeReg, State.writeCtrl]
    split
    · exact ⟨s.softReset_capTable, s.softReset_hostProg⟩
    · exact ⟨rfl, rfl⟩
  | _ => exact ⟨rfl, rfl⟩

theorem State.busWrite_sameConstants (s : State) (off : Offset) (w : AccessWidth) (v : Word) :
    s.SameConstants (s.busWrite off w v).state := by
  rcases s.busWrite_cases off w v with e | ⟨r, -, -, e⟩ | e | ⟨-, -, a, vs, -, e⟩ <;> rw [e]
  · exact ⟨rfl, rfl⟩
  · exact s.writeReg_sameConstants r v
  · exact ⟨rfl, rfl⟩
  · exact ⟨rfl, rfl⟩

theorem State.busRead_sameConstants (s : State) (off : Offset) (w : AccessWidth) :
    s.SameConstants (s.busRead off w).state := by
  rcases s.busRead_state off w with e | ⟨-, e | e | ⟨a, k, e⟩⟩ <;> rw [e] <;> exact ⟨rfl, rfl⟩

theorem State.hostStep_sameConstants (s : State) : s.SameConstants s.hostStep := by
  unfold State.hostStep
  split
  · next op _ =>
    cases op with
    | write off w v => exact s.busWrite_sameConstants off w v
    | read off w k => exact s.busRead_sameConstants off w
    | bz | bnz | halt => exact ⟨rfl, rfl⟩
  · exact ⟨rfl, rfl⟩

/-- Settles O59: neither agent's turn changes a constant. -/
theorem constantsNeverChange : Obligations.ConstantsNeverChange := by
  intro s t h
  rcases step_cases h with ⟨-, he⟩ | ⟨-, rfl⟩
  · exact (engineStep_sameConstants he :)
  · exact s.takeTurn.hostStep_sameConstants

/-! ## CWMEM -/

/-- The two commands that write CWMEM (R103, R142). -/
def writesMemory (i : Instr) : Prop := (∃ n, i = .rsBlock n) ∨ ∃ v e, i = .rsEncode v e

/-- A command that changes CWMEM is RS_BLOCK or RS_ENCODE (R142, R161). -/
theorem EndsIn.writesMemory_of_mem_ne {s t : State} {i : Instr} (h : EndsIn s i t) (hm : t.mem ≠ s.mem) :
    writesMemory i := by
  cases h with
  | failed | value | generator => exact absurd rfl hm
  | block n => exact .inl ⟨n, rfl⟩
  | encode v e => exact .inr ⟨v, e, rfl⟩

/-- A command with a destination range is RS_BLOCK or RS_ENCODE (R185). -/
theorem State.writesMemory_of_destinationOf {s : State} {i : Instr} {d : Nat × Nat} (h : s.destinationOf i = some d) :
    writesMemory i := by
  cases i with
  | rsBlock n => exact .inl ⟨n, rfl⟩
  | rsEncode v e => exact .inr ⟨v, e, rfl⟩
  | _ => cases h

/-- The engine changes CWMEM only by completing RS_BLOCK or RS_ENCODE (R160). -/
theorem engineStep_of_mem_ne {s t : State} (h : engineStep s = .next t) (hm : t.mem ≠ s.mem) :
    s.busy = true ∧ ∃ i, decode s.cmdLast = .command i ∧ writesMemory i := by
  rcases engineStep_cases s with ⟨-, he⟩ | ⟨hb, i, hi, he⟩ | ⟨-, _, -, he⟩
  · cases he.symm.trans h; exact absurd rfl hm
  · exact ⟨hb, i, hi, (exec_endsIn (he.symm.trans h)).writesMemory_of_mem_ne hm⟩
  · cases he.symm.trans h; exact absurd rfl hm

/-- CTRL stands at its offset only (R21). -/
theorem regAt_eq_ctrl {off : Nat} (h : regAt off = some .ctrl) : off / 4 = 2 := by
  unfold regAt at h
  split at h
  · cases h
  · obtain ⟨hlt, hget⟩ := List.getElem?_eq_some_iff.mp h
    have only : ∀ k : Fin 14, [DevReg.id, .cap, .ctrl, .status, .cmd, .result, .errcode, .src, .len, .dst, .gdeg,
        .geom0, .geom1, .etot][k.val] = .ctrl → k.val = 2 := by decide
    exact only ⟨off / 4, hlt⟩ hget

/-- An access to CTRL is a 32-bit one at its offset (R21, R59). -/
theorem accessTarget_eq_ctrl {off : Offset} {w : AccessWidth} (h : accessTarget off w = some (.reg .ctrl)) :
    off = ctrlOffset ∧ w = .b32 := by
  obtain ⟨-, hw, h4, hr⟩ := accessTarget_reg h
  have := regAt_eq_ctrl hr
  exact ⟨BitVec.eq_of_toNat_eq (show off.toNat = 8 by omega), hw⟩

/-- A write to a register changes CWMEM only by a soft reset that aborts RS_BLOCK or RS_ENCODE (R69, R185, R195). -/
theorem State.writeReg_of_mem_ne {s : State} {r : DevReg} {v : Word} (hm : (s.writeReg r v).mem ≠ s.mem) :
    r = .ctrl ∧ v.getLsbD 1 = true ∧ s.busy = true ∧ ∃ i, decode s.cmdLast = .command i ∧ writesMemory i := by
  cases r with
  | ctrl =>
    simp only [State.writeReg, State.writeCtrl] at hm
    split at hm
    · next hv =>
      rcases s.abortLatched_cases with e | ⟨i, _, _, hb, hi, hd, -⟩
      · exact absurd (by rw [State.softReset_mem, e]) hm
      · exact ⟨rfl, hv, hb, i, hi, State.writesMemory_of_destinationOf hd⟩
    · exact absurd rfl hm
  | _ => exact absurd rfl hm

/-- A host write that changes CWMEM goes through the window with BUSY = 0, or aborts RS_BLOCK or RS_ENCODE
(R67, R185, R195). -/
theorem State.busWrite_of_mem_ne {s : State} {off : Offset} {w : AccessWidth} {v : Word}
    (hm : (s.busWrite off w v).state.mem ≠ s.mem) :
    (s.busy = false ∧ 0x1000 ≤ off.toNat) ∨
      (s.busy = true ∧ (∃ i, decode s.cmdLast = .command i ∧ writesMemory i) ∧
        off = ctrlOffset ∧ w = .b32 ∧ v.getLsbD 1 = true) := by
  rcases s.busWrite_cases off w v with e | ⟨r, hr, -, e⟩ | e | ⟨hb, hoff, -⟩
  · exact absurd (by rw [e]; rfl) hm
  · rw [e] at hm
    obtain ⟨rfl, hv, hb, hi⟩ := State.writeReg_of_mem_ne hm
    obtain ⟨ho, hw⟩ := accessTarget_eq_ctrl hr
    exact .inr ⟨hb, hi, ho, hw, hv⟩
  · exact absurd (by rw [e]; rfl) hm
  · exact .inl ⟨hb, hoff⟩

/-- A host read changes no CWMEM byte (R69). -/
theorem State.busRead_mem (s : State) (off : Offset) (w : AccessWidth) : (s.busRead off w).state.mem = s.mem := by
  rcases s.busRead_state off w with e | ⟨-, e | e | ⟨a, k, e⟩⟩ <;> rw [e] <;> rfl

/-- A host turn that changes CWMEM is a write (R94). -/
theorem State.hostStep_of_mem_ne {s : State} (hm : s.hostStep.mem ≠ s.mem) :
    ∃ off w v, s.hostNext = some (.write off w v) ∧ (s.busWrite off w v).state.mem ≠ s.mem := by
  unfold State.hostStep at hm
  split at hm
  · next op hop =>
    cases op with
    | write off w v => exact ⟨off, w, v, hop, hm⟩
    | read off w k => exact absurd (s.busRead_mem off w) hm
    | bz | bnz | halt => exact absurd rfl hm
  · exact absurd rfl hm

/-- The latched command that writes CWMEM, as the statement spells it out. -/
theorem decode_of_writesMemory {w : Word} (h : ∃ i, decode w = .command i ∧ writesMemory i) :
    (∃ n, decode w = .command (.rsBlock n)) ∨ ∃ v e, decode w = .command (.rsEncode v e) := by
  obtain ⟨i, hi, ⟨n, rfl⟩ | ⟨v, e, rfl⟩⟩ := h
  · exact .inl ⟨n, hi⟩
  · exact .inr ⟨v, e, hi⟩

/-- Settles O60: by whose turn it is, and for the host by what its write addresses. -/
theorem onlyTheseEventsChangeMemory : Obligations.OnlyTheseEventsChangeMemory := by
  intro s t h hm
  rcases step_cases h with ⟨ht, he⟩ | ⟨ht, rfl⟩
  · obtain ⟨hb, hi⟩ := engineStep_of_mem_ne he hm
    exact .inr (.inl ⟨ht, hb, decode_of_writesMemory hi⟩)
  · obtain ⟨off, w, v, hop, hw⟩ := State.hostStep_of_mem_ne hm
    rcases State.busWrite_of_mem_ne hw with ⟨hb, hoff⟩ | ⟨hb, hi, rfl, rfl, hv⟩
    · exact .inl ⟨ht, hb, off, w, v, hop, hoff⟩
    · exact .inr (.inr ⟨ht, hb, decode_of_writesMemory hi, v, hop, hv⟩)

end Sys2Proof.Machine
end

section
/-!
PROOF. Proofs/FaultsAndIrq.lean: a host access records the model faults where they arise (10_state.md R40, 20_memory.md
R65), and IRQ rises at a completion and falls at the events of 60_exceptions.md R165.
-/
namespace Sys2Proof.Machine

/-! ## The recorded model faults -/

/-- An 8-bit access in the window addresses its byte (R60). -/
theorem accessTarget_window_byte {off : Offset} {a : Nat} (h : off.toNat = 0x1000 + a) :
    accessTarget off .b8 = some (.byte a) := by
  have window : ¬ off.toNat < 0x1000 := by omega
  have address : off.toNat - 0x1000 = a := by omega
  simp only [accessTarget, if_neg window, address]

/-- An aligned 32-bit access in the window addresses its four bytes (R60). -/
theorem accessTarget_window_word {off : Offset} {a : Nat} (h : off.toNat = 0x1000 + a) (h4 : a % 4 = 0) :
    accessTarget off .b32 = some (.word a) := by
  have window : ¬ off.toNat < 0x1000 := by omega
  have aligned : off.toNat % 4 = 0 := by omega
  have address : off.toNat - 0x1000 = a := by omega
  simp only [accessTarget, if_neg window, if_pos aligned, address]

/-- Settles O51: a window read records what recordUninit does, and a reserved offset has no register. -/
theorem modelFaultsRecorded : Obligations.ModelFaultsRecorded := by
  refine ⟨fun s off a hoff hb => ⟨fun x => ?_, fun h4 x => ?_⟩, fun s off v h4 hres => ?_⟩
  · have after : (s.busRead off .b8).state = s.recordUninit a 1 := by
      simp [State.busRead, accessTarget_window_byte hoff, hb]
    have single (P : Nat → Prop) : (∃ b, a ≤ b ∧ b < a + 1 ∧ P b) ↔ P a :=
      ⟨fun ⟨b, h1, h2, hp⟩ => (show b = a by omega) ▸ hp, fun hp => ⟨a, Nat.le_refl a, Nat.lt_succ_self a, hp⟩⟩
    rw [after, s.mem_recordUninit_faults, single]
  · have after : (s.busRead off .b32).state = s.recordUninit a 4 := by
      simp [State.busRead, accessTarget_window_word hoff h4, hb]
    rw [after, s.mem_recordUninit_faults]
  · have target := accessTarget_of_no_reg (off := off) (by omega) h4 (regAt_eq_none (by omega))
    exact ⟨s.busRead_of_reserved target, s.busWrite_of_reserved v target⟩

/-! ## IRQ -/

/-- A write to STATUS makes IRQ fall exactly when it clears DONE (R25, R165). -/
theorem State.irq_writeStatus (s : State) (v : Word) : (s.writeStatus v).irq = (s.irq && !v.getLsbD 1) :=
  (Bool.and_assoc s.ie s.done (!v.getLsbD 1)).symm

/-- After a write to CTRL, IRQ is high only when the write sets IE and is no soft reset (R24, R165, R183). -/
theorem State.irq_writeCtrl (s : State) (v : Word) :
    (s.writeCtrl v).irq = (!v.getLsbD 1 && (v.getLsbD 0 && s.done)) := by
  unfold State.writeCtrl
  cases v.getLsbD 1 <;> rfl

/-- IRQ falls at acceptance (R156, R165). -/
theorem State.irq_accept (s : State) (w : Word) : (s.accept w).irq = false := Bool.and_false s.ie

/-- A completed command leaves IRQ = IE (R160, R164). -/
theorem State.irq_of_done {s t : State} (hdone : t.done = true) (hie : t.ie = s.ie) : t.irq = s.ie := by
  rw [State.irq, hdone, hie, Bool.and_true]

/-- Settles O42: a completion sets DONE and keeps IE; each event of R165 clears one of the two. -/
theorem irqFalls : Obligations.IrqFalls := by
  refine ⟨fun _ => rfl, fun i s t h => ?_, fun s t why hb hd h => ?_, fun s => ?_⟩
  · obtain ⟨-, hdone, hie⟩ := (exec_endsIn h).flags
    exact State.irq_of_done hdone hie
  · have : t = s.raiseError .illegalCmd := by
      simpa [engineStep, hb, State.latched, hd] using h.symm
    exact this ▸ State.irq_of_done rfl rfl
  · have status (v : Word) : (s.busWrite statusOffset .b32 v).state.irq = (s.irq && !v.getLsbD 1) := by
      rw [s.busWrite_of_reg (r := .status) v (by decide) (.inr rfl)]
      exact s.irq_writeStatus v
    have ctrl (v : Word) : (s.busWrite ctrlOffset .b32 v).state.irq = (!v.getLsbD 1 && (v.getLsbD 0 && s.done)) := by
      rw [s.busWrite_of_reg (r := .ctrl) v (by decide) (.inr rfl)]
      exact s.irq_writeCtrl v
    refine ⟨fun v hv => ?_, fun v hv => ?_, fun w hb => ?_, fun v hv => ?_, rfl, ?_⟩
    · rw [status, hv, Bool.not_true, Bool.and_false]
    · rw [ctrl, hv, Bool.false_and, Bool.and_false]
    · rw [s.busWrite_of_reg (r := .cmd) w (by decide) (.inl hb)]
      exact s.irq_accept w
    · rw [ctrl, hv, Bool.not_true, Bool.false_and]
    · exact (status 0x4).trans (Bool.and_true s.irq)

end Sys2Proof.Machine
end

section
/-!
PROOF. Proofs/HostAccess.lean: which accesses the register region and the CWMEM window take and what each gives
(20_memory.md R59 to R62), what BUSY = 1 refuses (R67), and what a read leaves unchanged (R69).
-/
namespace Sys2Proof.Machine

/-! ## Accesses that are not legal -/

/-- The register region takes no access but an aligned 32-bit one (R59). -/
theorem accessTarget_register_illegal {off : Offset} {w : AccessWidth} (hlt : off.toNat < 0x1000)
    (h : w ≠ .b32 ∨ off.toNat % 4 ≠ 0) : accessTarget off w = none := by
  have illegal : ¬ (w = .b32 ∧ off.toNat % 4 = 0) := fun legal => h.elim (· legal.1) (· legal.2)
  simp only [accessTarget, if_pos hlt, if_neg illegal]

/-- The window takes no access but an 8-bit one and an aligned 32-bit one (R60). -/
theorem accessTarget_window_illegal {off : Offset} {w : AccessWidth} {a : Nat} (hoff : off.toNat = 0x1000 + a)
    (h : w = .b16 ∨ w = .wider ∨ (w = .b32 ∧ a % 4 ≠ 0)) : accessTarget off w = none := by
  have window : ¬ off.toNat < 0x1000 := by omega
  rcases h with rfl | rfl | ⟨rfl, h4⟩
  · simp only [accessTarget, if_neg window]
  · simp only [accessTarget, if_neg window]
  · have unaligned : ¬ off.toNat % 4 = 0 := by omega
    simp only [accessTarget, if_neg window, if_neg unaligned]

/-- An access that addresses nothing gets ERROR, as a read and as a write (R62). -/
theorem State.refused_of_no_target (s : State) {off : Offset} {w : AccessWidth} (v : Word)
    (h : accessTarget off w = none) : s.busRead off w = s.busError ∧ s.busWrite off w v = s.busError := by
  simp [State.busRead, State.busWrite, h]

/-! ## The register region -/

/-- A legal access of the register region addresses a register or a reserved offset (R59, R65). -/
theorem accessTarget_register_legal {off : Offset} (hlt : off.toNat < 0x1000) (h4 : off.toNat % 4 = 0) :
    (∃ r, accessTarget off .b32 = some (.reg r)) ∨ accessTarget off .b32 = some .reserved := by
  cases hr : regAt off.toNat with
  | some r => exact .inl ⟨r, accessTarget_of_regAt hlt h4 hr⟩
  | none => exact .inr (accessTarget_of_no_reg hlt h4 hr)

/-- Settles O43: by what the access addresses. -/
theorem registerAccessForms : Obligations.RegisterAccessForms := by
  intro s off w v hlt
  refine ⟨fun h => s.refused_of_no_target v (accessTarget_register_illegal hlt h), ?_⟩
  rintro rfl h4
  rcases accessTarget_register_legal hlt h4 with ⟨r, target⟩ | target
  · rw [s.busRead_of_reg target]
  · rw [s.busRead_of_reserved target]

/-! ## The window while no command runs -/

section
variable {s : State} (hb : s.busy = false) {off : Offset} {w : AccessWidth} {a : Nat}
include hb

/-- An 8-bit window read gives the byte, zero-extended (R60, log entry 10). -/
theorem State.busRead_of_byte (h : accessTarget off w = some (.byte a)) :
    s.busRead off w = ⟨.okay, (s.cw a).setWidth 32, s.recordUninit a 1⟩ := by
  simp [State.busRead, h, hb]

/-- An 8-bit window write stores bits [7:0] (R60, log entry 10). -/
theorem State.busWrite_of_byte (v : Word) (h : accessTarget off w = some (.byte a)) :
    s.busWrite off w v = ⟨.okay, 0, s.writeCw a [v.extractLsb' 0 8]⟩ := by
  simp [State.busWrite, h, hb]

/-- An aligned 32-bit window read gives the four bytes (R60, R61). -/
theorem State.busRead_of_word (h : accessTarget off w = some (.word a)) :
    s.busRead off w = ⟨.okay, s.cwWord a, s.recordUninit a 4⟩ := by
  simp [State.busRead, h, hb]

/-- An aligned 32-bit window write stores the four bytes (R60, R61). -/
theorem State.busWrite_of_word (v : Word) (h : accessTarget off w = some (.word a)) :
    s.busWrite off w v = ⟨.okay, 0, s.writeCw a (wordBytes v)⟩ := by
  simp [State.busWrite, h, hb]

end

/-- Settles O44: one rule per legal form, and no target for the others. -/
theorem windowAccessForms : Obligations.WindowAccessForms := by
  intro s off w v a hoff hb
  refine ⟨?_, ?_, fun h => s.refused_of_no_target v (accessTarget_window_illegal hoff h)⟩
  · rintro rfl
    have target := accessTarget_window_byte hoff
    rw [State.busRead_of_byte hb target, State.busWrite_of_byte hb v target]
    exact ⟨rfl, rfl, rfl⟩
  · rintro rfl h4
    have target := accessTarget_window_word hoff h4
    rw [State.busRead_of_word hb target, State.busWrite_of_word hb v target]
    exact ⟨rfl, rfl, rfl, rfl⟩

/-! ## Little-endian order -/

/-- Byte k of a word is its bits 8k+7..8k (R61). -/
theorem wordBytes_getElem? (v : Word) {k : Nat} (hk : k < 4) :
    (wordBytes v)[k]? = some (v.extractLsb' (8 * k) 8) := by
  obtain rfl | rfl | rfl | rfl : k = 0 ∨ k = 1 ∨ k = 2 ∨ k = 3 := by omega
  all_goals rfl

/-- CW[a + k] after the four bytes of a word are written at a (R61). -/
theorem State.cw_writeCw_wordBytes (s : State) (a : Nat) (v : Word) {k : Nat} (hk : k < 4) :
    (s.writeCw a (wordBytes v)).cw (a + k) = v.extractLsb' (8 * k) 8 := by
  have inside : a ≤ a + k ∧ a + k < a + (wordBytes v).length := ⟨Nat.le_add_right a k, Nat.add_lt_add_left hk a⟩
  apply State.cw_of_lookup
  rw [State.writeCw_mem, Mem.lookup_insertAll, if_pos inside, Nat.add_sub_cancel_left, wordBytes_getElem? v hk]

/-- The four bytes of a word, written at a, read back there as the word (R61). -/
theorem State.cwWord_writeCw_wordBytes (s : State) (a : Nat) (v : Word) :
    (s.writeCw a (wordBytes v)).cwWord a = v := by
  have byte {k : Nat} (hk : k < 4) := s.cw_writeCw_wordBytes a v hk
  have byte0 : (s.writeCw a (wordBytes v)).cw a = v.extractLsb' 0 8 := byte (k := 0) (by omega)
  calc (s.writeCw a (wordBytes v)).cwWord a
    _ = v.extractLsb' 24 8 ++ v.extractLsb' 16 8 ++ v.extractLsb' 8 8 ++ v.extractLsb' 0 8 := by
      rw [State.cwWord, byte (k := 3) (by omega), byte (k := 2) (by omega), byte (k := 1) (by omega), byte0]
    _ = v := (word_eq_bytes v).symm

/-- The offset of the byte k places above an aligned window offset does not wrap (R58). -/
theorem toNat_window_offset_add {off : Offset} {a k : Nat} (hoff : off.toNat = 0x1000 + a) (h4 : a % 4 = 0)
    (hk : k < 4) : (off + BitVec.ofNat 13 k).toNat = 0x1000 + (a + k) := by
  have := off.isLt
  rw [BitVec.toNat_add, BitVec.toNat_ofNat]
  omega

/-- Settles O45: the write stores the bytes of v, and each read gives what stands there. -/
theorem littleEndianWindow : Obligations.LittleEndianWindow := by
  intro s off v a hoff h4 hb
  have target := accessTarget_window_word hoff h4
  have hb' : (s.writeCw a (wordBytes v)).busy = false := hb
  rw [State.busWrite_of_word hb v target]
  refine ⟨fun k hk => ?_, ?_, fun b hout => ?_⟩
  · rw [State.busRead_of_byte hb' (accessTarget_window_byte (toNat_window_offset_add hoff h4 hk)),
      s.cw_writeCw_wordBytes a v hk]
  · rw [State.busRead_of_word hb' target, s.cwWord_writeCw_wordBytes]
  · have outside : ¬ (a ≤ b ∧ b < a + (wordBytes v).length) := fun h =>
      hout.elim (Nat.not_lt.mpr h.1) (Nat.not_le.mpr h.2)
    rw [State.writeCw_mem, Mem.lookup_insertAll, if_neg outside]

/-! ## What BUSY = 1 refuses -/

/-- A window access addresses a byte, four bytes or nothing (R60). -/
theorem accessTarget_window {off : Offset} (w : AccessWidth) (h : 0x1000 ≤ off.toNat) :
    accessTarget off w = none ∨
      ∃ a, accessTarget off w = some (.byte a) ∨ accessTarget off w = some (.word a) := by
  obtain ⟨a, hoff⟩ := Nat.exists_eq_add_of_le h
  cases w with
  | b8 => exact .inr ⟨a, .inl (accessTarget_window_byte hoff)⟩
  | b16 => exact .inl (accessTarget_window_illegal hoff (.inl rfl))
  | b32 =>
    by_cases h4 : a % 4 = 0
    · exact .inr ⟨a, .inr (accessTarget_window_word hoff h4)⟩
    · exact .inl (accessTarget_window_illegal hoff (.inr (.inr ⟨rfl, h4⟩)))
  | wider => exact .inl (accessTarget_window_illegal hoff (.inr (.inl rfl)))

section
variable {s : State} (hb : s.busy = true) {off : Offset} (w : AccessWidth) (v : Word)
include hb

/-- While a command runs, every window access gets ERROR (R67). -/
theorem State.refused_of_busy_window (h : 0x1000 ≤ off.toNat) :
    s.busRead off w = s.busError ∧ s.busWrite off w v = s.busError := by
  rcases accessTarget_window w h with target | ⟨a, target | target⟩
  · exact s.refused_of_no_target v target
  · simp [State.busRead, State.busWrite, target, hb]
  · simp [State.busRead, State.busWrite, target, hb]

/-- While a command runs, a write of any width to a closed register gets ERROR: its legal width is refused by R67, every
other by R59. -/
theorem State.busWrite_of_closed {r : DevReg} (h : accessTarget off .b32 = some (.reg r))
    (hr : r.closedWhileBusy = true) : s.busWrite off w v = s.busError := by
  by_cases hw : w = .b32
  · simp [State.busWrite, hw, h, hb, hr]
  · obtain ⟨hlt, -⟩ := accessTarget_reg h
    exact (s.refused_of_no_target v (accessTarget_register_illegal hlt (.inl hw))).2

end

/-- Settles O46: the window and the four closed registers are refused, the other registers are not. -/
theorem busyRefusals : Obligations.BusyRefusals := by
  intro s off w v hb
  refine ⟨State.refused_of_busy_window hb w v, ?_, fun r => s.busRead_of_reg,
    s.busWrite_of_reg (r := .ctrl) v (by decide) (.inr rfl),
    s.busWrite_of_reg (r := .status) v (by decide) (.inr rfl)⟩
  rintro (rfl | rfl | rfl | rfl)
  · exact State.busWrite_of_closed hb w v (r := .src) (by decide) rfl
  · exact State.busWrite_of_closed hb w v (r := .len) (by decide) rfl
  · exact State.busWrite_of_closed hb w v (r := .dst) (by decide) rfl
  · exact State.busWrite_of_closed hb w v (r := .cmd) (by decide) rfl

/-! ## Reads -/

/-- Settles O50: by what a read leaves. -/
theorem readsChangeNothing : Obligations.ReadsChangeNothing := by
  intro s off w
  refine ⟨fun herr => ?_, fun hok => ?_, fun r target => by rw [s.busRead_of_reg target]⟩
  · rcases s.busRead_state off w with e | ⟨hok, -⟩
    · exact congrArg BusResult.state e
    · cases hok.symm.trans herr
  · rcases s.busRead_state off w with e | ⟨-, e | e | ⟨a, k, e⟩⟩
    · cases (congrArg BusResult.resp e).symm.trans hok
    · rw [e]
    · rw [e]; rfl
    · rw [e]; rfl

end Sys2Proof.Machine
end

section
/-!
PROOF. Proofs/HostOperations.lean: each operation of the host notation as a step at the host's turn (30_encoding.md R94).
A bus access leaves the host's own fields alone, and which turns come next plays no part in it.
-/
namespace Sys2Proof.Machine

/-! ## A bus access and the host's fields -/

/-- The host stands in both states at one position, with one set of temporaries, and the same turns come next. -/
structure State.SameHost (s t : State) : Prop where
  pc : t.hostPc = s.hostPc
  temps : t.hostTemps = s.hostTemps
  schedule : t.schedule = s.schedule

/-- No effect of a register write reaches the host, a soft reset included (R183, log entry 13). -/
theorem State.writeReg_sameHost (s : State) (r : DevReg) (v : Word) : s.SameHost (s.writeReg r v) := by
  cases r with
  | ctrl =>
    simp only [State.writeReg, State.writeCtrl]
    split
    · exact ⟨s.softReset_hostPc, s.softReset_hostTemps, s.softReset_schedule⟩
    · exact ⟨rfl, rfl, rfl⟩
  | _ => exact ⟨rfl, rfl, rfl⟩

theorem State.busWrite_sameHost (s : State) (off : Offset) (w : AccessWidth) (v : Word) :
    s.SameHost (s.busWrite off w v).state := by
  rcases s.busWrite_cases off w v with e | ⟨r, -, -, e⟩ | e | ⟨-, -, a, vs, -, e⟩ <;> rw [e]
  · exact ⟨rfl, rfl, rfl⟩
  · exact s.writeReg_sameHost r v
  · exact ⟨rfl, rfl, rfl⟩
  · exact ⟨rfl, rfl, rfl⟩

theorem State.busRead_sameHost (s : State) (off : Offset) (w : AccessWidth) : s.SameHost (s.busRead off w).state := by
  rcases s.busRead_state off w with e | ⟨-, e | e | ⟨a, k, e⟩⟩ <;> rw [e] <;> exact ⟨rfl, rfl, rfl⟩

/-! ## The host's turn -/

section
variable {s : State} (ht : s.turn = .host)
include ht

/-- At its turn the host carries out its next operation (R70, R94). -/
theorem step_of_hostNext {op : HostOp} (hop : s.hostNext = some op) : step s = .next (s.takeTurn.hostExec op) := by
  have hop' : s.takeTurn.hostNext = some op := hop
  simp only [step, ht, State.hostStep, hop']

/-- A host without a next operation only uses up its turn (log entry 8). -/
theorem step_of_hostNext_none (hop : s.hostNext = none) : step s = .next s.takeTurn := by
  have hop' : s.takeTurn.hostNext = none := hop
  simp only [step, ht, State.hostStep, hop']

end

/-- A write at the host's turn: the device's state and response, and the next position (R68, R94). -/
theorem State.takeTurn_hostExec_write (s : State) (off : Offset) (w : AccessWidth) (v : Word) :
    s.takeTurn.hostExec (.write off w v) = { (s.busWrite off w v).state with
      schedule := s.schedule.tail
      hostResp := some (s.busWrite off w v).resp
      hostPc := s.hostPc + 1 } := by
  have same := s.busWrite_sameHost off w v
  rw [State.hostExec, s.busWrite_takeTurn, ← same.pc, ← same.schedule]
  rfl

/-- A read at the host's turn: as a write, and the data in the temporary (R68, R94). -/
theorem State.takeTurn_hostExec_read (s : State) (off : Offset) (w : AccessWidth) (t : Nat) :
    s.takeTurn.hostExec (.read off w t) = { (s.busRead off w).state with
      schedule := s.schedule.tail
      hostResp := some (s.busRead off w).resp
      hostPc := s.hostPc + 1
      hostTemps := setTemp s.hostTemps t (s.busRead off w).data } := by
  have same := s.busRead_sameHost off w
  rw [State.hostExec, s.busRead_takeTurn, ← same.pc, ← same.temps, ← same.schedule]
  rfl

/-- Settles O52: one operation after the other, each by the step it makes. -/
theorem hostOperations : Obligations.HostOperations := by
  intro s ht
  refine ⟨fun off w v hop => ?_, fun off w t hop => ?_, fun t m target hop => ?_, fun t m target hop => ?_,
    fun hop => ?_, fun hop => ?_⟩
  · rw [step_of_hostNext ht hop, State.takeTurn_hostExec_write]
  · refine ⟨setTemp s.hostTemps t (s.busRead off w).data, ?_, ?_, fun k hk => ?_⟩
    · rw [step_of_hostNext ht hop, State.takeTurn_hostExec_read]
    · rw [tempValue_setTemp, if_pos rfl]
    · rw [tempValue_setTemp, if_neg hk]
  · rw [step_of_hostNext ht hop]
    simp only [State.hostExec, State.hostBranch, decide_eq_true_eq]
    rfl
  · rw [step_of_hostNext ht hop]
    simp only [State.hostExec, State.hostBranch, decide_eq_true_eq, ne_eq, ite_not]
    rfl
  · rw [step_of_hostNext ht hop]
    rfl
  · exact step_of_hostNext_none ht hop

end Sys2Proof.Machine
end

section
/-!
PROOF. Proofs/OpcodeMap.lean: the rows of the opcode map (30_encoding.md R84) against the fields of a word. A row selects
the words that have its OP and no reserved bit set, so a word selects at most one row; and these are the words of the
commands that the row builds, so decoding and encoding are inverse to each other.
-/
namespace Sys2Proof

/-! ## The fields of a legal word -/

/-- No reserved bit is set and OP is assigned (R88, R89): RSV0 and RSV1 are 0, OP is in 1..8, B is 0 in the format UN, and
B[7:2] in the format ENC. -/
structure LegalFields (w : Word) : Prop where
  rsv0 : w.extractLsb' 4 4 = 0
  rsv1 : w.extractLsb' 24 8 = 0
  assigned : 1 ≤ (w.extractLsb' 0 4).toNat ∧ (w.extractLsb' 0 4).toNat ≤ 8
  un : 4 ≤ (w.extractLsb' 0 4).toNat → (w.extractLsb' 0 4).toNat ≤ 7 → w.extractLsb' 16 8 = 0
  enc : (w.extractLsb' 0 4).toNat = 8 → w.extractLsb' 18 6 = 0

/-- Bits [7:0] are RSV0 and OP (R81). -/
theorem lowByte_eq_iff (w : Word) (op : BitVec 4) :
    w.extractLsb' 0 8 = 0#4 ++ op ↔ w.extractLsb' 4 4 = 0 ∧ w.extractLsb' 0 4 = op := by
  have halves : w.extractLsb' 4 4 ++ w.extractLsb' 0 4 = w.extractLsb' 0 8 :=
    BitVec.extractLsb'_append_extractLsb'_eq_extractLsb' (by rfl)
  rw [← halves, append_eq_append_iff]
  rfl

/-- The field B is B[7:2] and the EC level (R83, R87). -/
theorem fieldB_eq_append (w : Word) : fieldB w = w.extractLsb' 18 6 ++ w.extractLsb' 16 2 := by
  rw [BitVec.extractLsb'_append_extractLsb'_eq_extractLsb' (by rfl), fieldB]

/-- The mask of the format ENC keeps B[7:2] (R87). -/
theorem and_fieldB_eq_zero_iff (w : Word) : fieldB w &&& 0xFC = 0 ↔ w.extractLsb' 18 6 = 0 := by
  have ones : ∀ x : BitVec 6, x &&& 0x3F#6 = x := fun x => BitVec.and_allOnes
  rw [fieldB_eq_append, show (0xFC : Byte) = 0x3F#6 ++ 0#2 from rfl, BitVec.and_append, ones, BitVec.and_zero,
    show (0 : Byte) = 0#6 ++ 0#2 from rfl, append_eq_append_iff, and_iff_left rfl]
  rfl

section
variable (w : Word) {op : BitVec 4}

/-- The words a row of the format BIN selects (R85). -/
theorem and_maskBin_eq_pattern_iff (hop : 1 ≤ op.toNat ∧ op.toNat ≤ 3) :
    w &&& 0xFF0000FF = 0#8 ++ 0#8 ++ 0#8 ++ (0#4 ++ op) ↔ LegalFields w ∧ w.extractLsb' 0 4 = op := by
  conv => lhs; rw [word_eq_bytes w]
  rw [and_maskBin_eq_iff, lowByte_eq_iff]
  constructor
  · rintro ⟨h1, h0, rfl⟩
    exact ⟨⟨h0, h1, by omega, by omega, by omega⟩, rfl⟩
  · rintro ⟨h, rfl⟩
    exact ⟨h.rsv1, h.rsv0, rfl⟩

/-- The words a row of the format UN selects (R86). -/
theorem and_maskUn_eq_pattern_iff (hop : 4 ≤ op.toNat ∧ op.toNat ≤ 7) :
    w &&& 0xFFFF00FF = 0#8 ++ 0#8 ++ 0#8 ++ (0#4 ++ op) ↔ LegalFields w ∧ w.extractLsb' 0 4 = op := by
  conv => lhs; rw [word_eq_bytes w]
  rw [and_maskUn_eq_iff, lowByte_eq_iff]
  constructor
  · rintro ⟨h1, hB, h0, rfl⟩
    exact ⟨⟨h0, h1, by omega, fun _ _ => hB, by omega⟩, rfl⟩
  · rintro ⟨h, rfl⟩
    exact ⟨h.rsv1, h.un hop.1 hop.2, h.rsv0, rfl⟩

/-- The words a row of the format ENC selects (R87). -/
theorem and_maskEnc_eq_pattern_iff (hop : op.toNat = 8) :
    w &&& 0xFFFC00FF = 0#8 ++ 0#8 ++ 0#8 ++ (0#4 ++ op) ↔ LegalFields w ∧ w.extractLsb' 0 4 = op := by
  conv => lhs; rw [word_eq_bytes w]
  rw [and_maskEnc_eq_iff, lowByte_eq_iff, ← fieldB, and_fieldB_eq_zero_iff]
  constructor
  · rintro ⟨h1, hB, h0, rfl⟩
    exact ⟨⟨h0, h1, by omega, by omega, fun _ => hB⟩, rfl⟩
  · rintro ⟨h, rfl⟩
    exact ⟨h.rsv1, h.enc hop, h.rsv0, rfl⟩

end

/-! ## Which words a row selects -/

/-- A word selects a row when the row's mask leaves the row's pattern of it (R84). -/
theorem OpRow.selects_iff (r : OpRow) (w : Word) : r.selects w = true ↔ w &&& r.mask = r.pattern := decide_eq_true_iff

/-- A row selects the legal words with its OP. -/
theorem OpRow.selects_iff_fields {r : OpRow} (hr : r ∈ opcodeMap) (w : Word) :
    r.selects w = true ↔ LegalFields w ∧ w.extractLsb' 0 4 = r.pattern.extractLsb' 0 4 := by
  rw [r.selects_iff]
  simp only [opcodeMap, List.mem_cons, List.not_mem_nil, or_false] at hr
  rcases hr with rfl | rfl | rfl | rfl | rfl | rfl | rfl | rfl
  · exact and_maskBin_eq_pattern_iff w (op := 1) (by decide)
  · exact and_maskBin_eq_pattern_iff w (op := 2) (by decide)
  · exact and_maskBin_eq_pattern_iff w (op := 3) (by decide)
  · exact and_maskUn_eq_pattern_iff w (op := 4) (by decide)
  · exact and_maskUn_eq_pattern_iff w (op := 5) (by decide)
  · exact and_maskUn_eq_pattern_iff w (op := 6) (by decide)
  · exact and_maskUn_eq_pattern_iff w (op := 7) (by decide)
  · exact and_maskEnc_eq_pattern_iff w (op := 8) (by decide)

/-- Every OP in 1..8 has a row, so the opcode map selects the legal words. -/
theorem exists_row_iff (w : Word) : (∃ r ∈ opcodeMap, r.selects w = true) ↔ LegalFields w := by
  have rows : ∀ op : BitVec 4, 1 ≤ op.toNat ∧ op.toNat ≤ 8 →
      ∃ r ∈ opcodeMap, op = r.pattern.extractLsb' 0 4 := by decide
  constructor
  · rintro ⟨r, hr, hw⟩
    exact ((OpRow.selects_iff_fields hr w).mp hw).1
  · intro h
    obtain ⟨r, hr, hop⟩ := rows _ h.assigned
    exact ⟨r, hr, (OpRow.selects_iff_fields hr w).mpr ⟨h, hop⟩⟩

/-- Settles O5: a word has one OP, and the OPs of the eight rows differ. -/
theorem opcodeRowsDisjoint : Obligations.OpcodeRowsDisjoint := by
  have differ : opcodeMap.Pairwise fun r q => r.pattern.extractLsb' 0 4 ≠ q.pattern.extractLsb' 0 4 := by decide
  refine differ.imp_of_mem fun hr hq hne w ⟨hrw, hqw⟩ => hne ?_
  obtain ⟨-, hrop⟩ := (OpRow.selects_iff_fields hr w).mp hrw
  obtain ⟨-, hqop⟩ := (OpRow.selects_iff_fields hq w).mp hqw
  exact hrop.symm.trans hqop

/-- A row that a word selects is the only one. -/
theorem OpRow.eq_of_selects {r q : OpRow} (hr : r ∈ opcodeMap) (hq : q ∈ opcodeMap) {w : Word}
    (hrw : r.selects w = true) (hqw : q.selects w = true) : r = q := by
  have disjoint := List.pairwise_iff_getElem.mp opcodeRowsDisjoint
  obtain ⟨i, hi, rfl⟩ := List.getElem_of_mem hr
  obtain ⟨j, hj, rfl⟩ := List.getElem_of_mem hq
  rcases Nat.lt_trichotomy i j with h | rfl | h
  · exact absurd ⟨hrw, hqw⟩ (disjoint i j hi hj h w)
  · rfl
  · exact absurd ⟨hqw, hrw⟩ (disjoint j i hj hi h w)

/-! ## What a word decodes to -/

/-- A word decodes to what the row it selects builds of its fields A and B (R84). -/
theorem decode_of_selects {r : OpRow} (hr : r ∈ opcodeMap) {w : Word} (h : r.selects w = true) :
    decode w = .command (r.build (fieldA w) (fieldB w)) := by
  obtain ⟨q, hq⟩ := Option.isSome_iff_exists.mp ((List.find?_isSome (p := (OpRow.selects · w))).mpr ⟨r, hr, h⟩)
  have hqr : q = r :=
    OpRow.eq_of_selects (List.mem_of_find?_eq_some hq) hr (List.find?_some (p := (OpRow.selects · w)) hq) h
  rw [decode, hq, hqr]

/-- A word that selects no row is illegal, by the name its OP gives it (R88, R89). -/
theorem decode_of_no_row {w : Word} (h : ∀ r ∈ opcodeMap, r.selects w = false) :
    decode w = if 1 ≤ (w.extractLsb' 0 4).toNat ∧ (w.extractLsb' 0 4).toNat ≤ 8 then .illegal .reservedBit
      else .illegal .unassignedOpcode := by
  have hnone : opcodeMap.find? (fun r => r.selects w) = none :=
    List.find?_eq_none.mpr fun r hr => Bool.eq_false_iff.mp (h r hr)
  rw [decode, hnone]

/-- The words of a command are those that select a row which builds it. -/
theorem decode_eq_command_iff {w : Word} {i : Instr} :
    decode w = .command i ↔ ∃ r ∈ opcodeMap, r.selects w = true ∧ r.build (fieldA w) (fieldB w) = i := by
  constructor
  · intro h
    by_cases hrow : ∃ r ∈ opcodeMap, r.selects w = true
    · obtain ⟨r, hr, hw⟩ := hrow
      exact ⟨r, hr, hw, Decoded.command.inj ((decode_of_selects hr hw).symm.trans h)⟩
    · rw [decode_of_no_row (by simpa using hrow)] at h
      split at h <;> cases h
  · rintro ⟨r, hr, hw, rfl⟩
    exact decode_of_selects hr hw

/-! ## Decoding and encoding -/

/-- A word is packed of the bytes it consists of (R81). -/
theorem packWord_eq_iff (w : Word) (b a o : Byte) :
    packWord b a o = w ↔ w.extractLsb' 24 8 = 0 ∧ fieldB w = b ∧ fieldA w = a ∧ w.extractLsb' 0 8 = o := by
  conv => lhs; rw [word_eq_bytes w, packWord, eq_comm]
  rw [append_eq_append_iff, append_eq_append_iff, append_eq_append_iff, and_assoc, and_assoc]
  rfl

/-- The field B is its EC level under six zeros exactly when B[7:2] = 0 (R83, R87). -/
theorem fieldB_eq_level_iff (w : Word) : fieldB w = 0#6 ++ (fieldB w).extractLsb' 0 2 ↔ fieldB w &&& 0xFC = 0 := by
  have level : (fieldB w).extractLsb' 0 2 = w.extractLsb' 16 2 := by
    rw [fieldB_eq_append, BitVec.extractLsb'_append_eq_right]
  rw [level, and_fieldB_eq_zero_iff, fieldB_eq_append, append_eq_append_iff, and_iff_left rfl]
  rfl

/-- The words a row selects are the words of the commands it builds: the bits its mask leaves out are those that its
format's operands fill. -/
theorem OpRow.selects_iff_encode {r : OpRow} (hr : r ∈ opcodeMap) (w : Word) :
    r.selects w = true ↔ encode (r.build (fieldA w) (fieldB w)) = w := by
  have bin (o : Byte) : w &&& 0xFF0000FF = 0#8 ++ 0#8 ++ 0#8 ++ o ↔ packWord (fieldB w) (fieldA w) o = w := by
    conv => lhs; rw [word_eq_bytes w]
    rw [and_maskBin_eq_iff, packWord_eq_iff]
    simp only [true_and]
  have un (o : Byte) : w &&& 0xFFFF00FF = 0#8 ++ 0#8 ++ 0#8 ++ o ↔ packWord 0 (fieldA w) o = w := by
    conv => lhs; rw [word_eq_bytes w]
    rw [and_maskUn_eq_iff, packWord_eq_iff, ← fieldB]
    simp only [true_and]
  have enc (o : Byte) : w &&& 0xFFFC00FF = 0#8 ++ 0#8 ++ 0#8 ++ o ↔
      packWord (0#6 ++ ecLevelBits (ecLevelOfBits ((fieldB w).extractLsb' 0 2))) (fieldA w) o = w := by
    conv => lhs; rw [word_eq_bytes w]
    rw [and_maskEnc_eq_iff, packWord_eq_iff, ecLevelBits_ofBits, fieldB_eq_level_iff, ← fieldB]
    simp only [true_and]
  rw [r.selects_iff]
  simp only [opcodeMap, List.mem_cons, List.not_mem_nil, or_false] at hr
  rcases hr with rfl | rfl | rfl | rfl | rfl | rfl | rfl | rfl
  · exact bin 1
  · exact bin 2
  · exact bin 3
  · exact un 4
  · exact un 5
  · exact un 6
  · exact un 7
  · exact enc 8

/-- Each command has a row that builds it of the fields A and B of its word (R82, R84). -/
theorem exists_row_builds (i : Instr) : ∃ r ∈ opcodeMap, r.build (fieldA (encode i)) (fieldB (encode i)) = i := by
  have level (x : BitVec 2) : (0#6 ++ x).extractLsb' 0 2 = x := BitVec.extractLsb'_append_eq_right
  cases i <;> simp [opcodeMap, encode, level]

/-- Settles O2: the row that builds the command selects the command's word. -/
theorem decodeOfEncode : Obligations.DecodeOfEncode := by
  intro i
  obtain ⟨r, hr, hi⟩ := exists_row_builds i
  refine decode_eq_command_iff.mpr ⟨r, hr, ?_, hi⟩
  rw [OpRow.selects_iff_encode hr, hi]

/-- Settles O3: the selected row selects only the word of the command it builds. -/
theorem encodeOfDecode : Obligations.EncodeOfDecode := by
  intro w i h
  obtain ⟨r, hr, hw, rfl⟩ := decode_eq_command_iff.mp h
  exact (OpRow.selects_iff_encode hr w).mp hw

end Sys2Proof
end

section
/-!
PROOF. Proofs/IllegalWords.lean: the legality predicate (30_encoding.md R90) in terms of a word's fields, the words that
are illegal (R88, R89), and what the engine does with one (60_exceptions.md R153, R162).
-/
namespace Sys2Proof

/-- The predicate of R90 holds of the words with legal fields: one case for each OP value it names. -/
theorem legalWord_iff (w : Word) : legalWord w = true ↔ LegalFields w := by
  rw [legalWord, Bool.and_eq_true, Bool.and_eq_true, decide_eq_true_iff, decide_eq_true_iff, and_assoc]
  constructor
  · rintro ⟨h0, h1, h⟩
    split at h
    case h_1 | h_2 | h_3 => exact ⟨h0, h1, by omega, by omega, by omega⟩
    case h_4 | h_5 | h_6 | h_7 => exact ⟨h0, h1, by omega, fun _ _ => of_decide_eq_true h, by omega⟩
    case h_8 => exact ⟨h0, h1, by omega, by omega, fun _ => of_decide_eq_true h⟩
    case h_9 => cases h
  · rintro ⟨h0, h1, hop, hun, henc⟩
    refine ⟨h0, h1, ?_⟩
    split
    case h_1 | h_2 | h_3 => rfl
    case h_4 | h_5 | h_6 | h_7 => exact decide_eq_true (hun (by omega) (by omega))
    case h_8 h8 => exact decide_eq_true (henc h8)
    case h_9 => simp only [imp_false] at *; omega

/-- Settles O4: both sides say that the word's fields are legal. -/
theorem decodesExactlyLegalWords : Obligations.DecodesExactlyLegalWords := by
  intro w
  rw [legalWord_iff, ← exists_row_iff]
  constructor
  · rintro ⟨i, hi⟩
    obtain ⟨r, hr, hw, -⟩ := decode_eq_command_iff.mp hi
    exact ⟨r, hr, hw⟩
  · rintro ⟨r, hr, hw⟩
    exact ⟨_, decode_of_selects hr hw⟩

/-- Settles O6: OP is not assigned, so the fields are not legal and no row is selected. -/
theorem unassignedOpcodesRejected : Obligations.UnassignedOpcodesRejected := by
  intro w hop
  have hunassigned : ¬ (1 ≤ (w.extractLsb' 0 4).toNat ∧ (w.extractLsb' 0 4).toNat ≤ 8) := by
    rcases hop with h | h
    · simp [h]
    · omega
  have hfields : ¬ LegalFields w := fun h => hunassigned h.assigned
  have hrows : ∀ r ∈ opcodeMap, r.selects w = false := by
    simpa using (not_congr (exists_row_iff w)).mpr hfields
  refine ⟨hrows, ?_, Bool.eq_false_iff.mpr ((not_congr (legalWord_iff w)).mpr hfields)⟩
  rw [decode_of_no_row hrows, if_neg hunassigned]

/-- Settles O7: the fields of a legal word have no reserved bit set. -/
theorem reservedBitsRejected : Obligations.ReservedBitsRejected := by
  intro w hset
  have hfields : ¬ LegalFields w := by
    intro h
    rcases hset with h0 | h1 | ⟨h4, h7, hB⟩ | ⟨h8, hB⟩
    · exact h0 h.rsv0
    · exact h1 h.rsv1
    · exact hB (h.un h4 h7)
    · exact hB (h.enc (congrArg BitVec.toNat h8))
  have hlegal : ¬ legalWord w = true := (not_congr (legalWord_iff w)).mpr hfields
  exact ⟨Bool.eq_false_iff.mpr hlegal, (not_congr (decodesExactlyLegalWords w)).mpr hlegal⟩

namespace Machine

/-- The engine ends a command whose latched word is illegal with ILLEGAL_CMD (R153). -/
theorem engineStep_of_illegal {s : State} {why : IllegalWord} (hb : s.busy = true)
    (hd : decode s.cmdLast = .illegal why) : engineStep s = .next (s.raiseError .illegalCmd) := by
  rcases engineStep_cases s with ⟨hb', -⟩ | ⟨-, i, hi, -⟩ | ⟨-, _, -, he⟩
  · cases hb.symm.trans hb'
  · cases hd.symm.trans hi
  · exact he

/-- Settles O10: at its turn the engine ends the command with an error, which writes the status alone (R162). -/
theorem illegalWordCompletes : Obligations.IllegalWordCompletes := by
  intro s why ht hb hd
  have he : engineStep s.takeTurn = .next (s.takeTurn.raiseError .illegalCmd) := engineStep_of_illegal hb hd
  rw [step, ht]
  exact he

end Machine
end Sys2Proof
end

section
/-!
PROOF. Proofs/Assembler.lean: the words of the assembler lines by the shifts that the table of 30_encoding.md R93
prints, the lines that have no word, and the worked encodings of R95.
-/
namespace Sys2Proof

/-- The shifts of R93 put the bytes where R81 has them. -/
theorem packWord_eq_or (b a o : Byte) :
    packWord b a o = o.setWidth 32 ||| (b.setWidth 32 <<< 16) ||| (a.setWidth 32 <<< 8) := by
  have shifts := BitVec.setWidth_append_append_append_eq_shiftLeft_setWidth_or (b := 0#8) (b' := b) (b'' := a)
    (b''' := o) (w'''' := 32)
  rw [BitVec.setWidth_eq] at shifts
  rw [packWord, shifts]
  simp only [BitVec.setWidth_zero, BitVec.zero_shiftLeft, BitVec.zero_or, BitVec.or_comm, BitVec.or_assoc]

section
variable {a b : Nat} (ha : a < 256)
include ha

/-- A number below 256 keeps its value in the byte that carries it. -/
theorem setWidth_ofNat_of_lt : (BitVec.ofNat 8 a).setWidth 32 = BitVec.ofNat 32 a :=
  BitVec.setWidth_ofNat_of_le_of_lt (by decide) ha

/-- The word of two operands, of the format BIN (R85). -/
theorem packWord_ofNat_ofNat (hb : b < 256) (o : Byte) :
    packWord (BitVec.ofNat 8 b) (BitVec.ofNat 8 a) o
      = o.setWidth 32 ||| (BitVec.ofNat 32 b <<< 16) ||| (BitVec.ofNat 32 a <<< 8) := by
  rw [packWord_eq_or, setWidth_ofNat_of_lt ha, setWidth_ofNat_of_lt hb]

/-- The word of one operand, of the format UN (R86). -/
theorem packWord_zero_ofNat (o : Byte) :
    packWord 0#8 (BitVec.ofNat 8 a) o = o.setWidth 32 ||| (BitVec.ofNat 32 a <<< 8) := by
  rw [packWord_eq_or, setWidth_ofNat_of_lt ha, BitVec.setWidth_zero, BitVec.zero_shiftLeft, BitVec.or_zero]

/-- The line rs.encode has the EC level's code in bits [17:16] (R83, R93). -/
theorem assemble_rsEncode (e : EcLevel) :
    (AsmLine.rsEncode a e).assemble.map encode
      = some (0x00000008 ||| ((ecLevelBits e).setWidth 32 <<< 16) ||| (BitVec.ofNat 32 a <<< 8)) := by
  have level : (0#6 ++ ecLevelBits e).setWidth 32 = (ecLevelBits e).setWidth 32 := by cases e <;> rfl
  simp [AsmLine.assemble, AsmLine.wellFormed, encode, packWord_eq_or, setWidth_ofNat_of_lt ha, level, ha]

end

/-- A line with an operand that does not fit 8 bits has no word (R93). -/
theorem AsmLine.assemble_eq_none {l : AsmLine} (h : l.wellFormed = false) : l.assemble = none := by
  cases l <;> exact if_neg (Bool.eq_false_iff.mp h)

/-- Settles O8: the lines of each format by the word of that format, and the lines that are not well-formed. -/
theorem assembledWords : Obligations.AssembledWords := by
  refine ⟨fun a b ha hb => ?_, fun a ha => ?_, fun v hv => ?_, fun a b hab => ?_, fun a ha => ?_⟩
  · simp [AsmLine.assemble, AsmLine.wellFormed, encode, packWord_ofNat_ofNat ha hb, ha, hb]
  · simp [AsmLine.assemble, AsmLine.wellFormed, encode, packWord_zero_ofNat ha, ha]
  · exact ⟨assemble_rsEncode hv .L, assemble_rsEncode hv .M, assemble_rsEncode hv .Q, assemble_rsEncode hv .H⟩
  · have hwf : (decide (a < 256) && decide (b < 256)) = false := by
      rw [Bool.and_eq_false_iff, decide_eq_false_iff_not, decide_eq_false_iff_not]
      omega
    exact ⟨AsmLine.assemble_eq_none hwf, AsmLine.assemble_eq_none hwf, AsmLine.assemble_eq_none hwf⟩
  · have hwf : decide (a < 256) = false := decide_eq_false (by omega)
    exact ⟨AsmLine.assemble_eq_none hwf, AsmLine.assemble_eq_none hwf, AsmLine.assemble_eq_none hwf,
      AsmLine.assemble_eq_none hwf, fun _ => AsmLine.assemble_eq_none hwf⟩

/-- Settles O1: each worked encoding is evaluated. -/
theorem workedEncodings : Obligations.WorkedEncodings := by
  unfold Obligations.WorkedEncodings
  decide

end Sys2Proof
end

section
/-!
PROOF. Proofs/FieldLaws.lean: the product by tables (40_gf_arith.md R100) is the product of polynomials modulo PRIM (R96,
R97), and the field laws of R102. On non-zero elements the tables turn products into sums of exponents, which gives the
laws of the product alone. Multiplying by x commutes with both products and reaches every non-zero byte from 1, so the two
products are equal; and the polynomial product is linear, so the product by tables distributes over the sum.
-/
namespace Sys2Proof.Machine

/-! ## Exponents -/

/-- Multiplying by x raises the exponent by 1 modulo 255, also from the last entry back to the first (R97, R98). -/
theorem expRom_add_one_mod : ∀ i < 255, expRom ((i + 1) % 255) = xtime (expRom i) := by decide +kernel

/-- A power of ALPHA is not 0 (R97). -/
theorem expRom_ne_zero : ∀ i < 255, expRom i ≠ 0 := by decide +kernel

/-- An element is 0 or a power of ALPHA (R97). -/
theorem eq_zero_or_exists_expRom (a : Byte) : a = 0 ∨ ∃ i < 255, a = expRom i := by
  by_cases ha : a = 0
  · exact .inl ha
  · obtain ⟨hlt, hexp⟩ := logRom_lt_and_expRom_logRom a ha
    exact .inr ⟨logRom a, hlt, hexp.symm⟩

theorem exists_expRom_of_ne_zero {a : Byte} (ha : a ≠ 0) : ∃ i < 255, a = expRom i :=
  (eq_zero_or_exists_expRom a).resolve_left ha

/-! ## The product and the quotient by exponents -/

theorem gfmul_zero (a : Byte) : gfmul a 0 = 0 := if_pos (.inr rfl)

theorem zero_gfmul (a : Byte) : gfmul 0 a = 0 := if_pos (.inl rfl)

/-- The product adds exponents (R100). -/
theorem gfmul_expRom {i j : Nat} (hi : i < 255) (hj : j < 255) :
    gfmul (expRom i) (expRom j) = expRom ((i + j) % 255) := by
  rw [gfmul, if_neg (not_or.mpr ⟨expRom_ne_zero i hi, expRom_ne_zero j hj⟩), logRom_expRom i hi, logRom_expRom j hj]

/-- The quotient subtracts exponents (R101). -/
theorem gfdiv_expRom {i j : Nat} (hi : i < 255) (hj : j < 255) :
    gfdiv (expRom i) (expRom j) = expRom (((i : Int) - (j : Int)) % 255).toNat := by
  rw [gfdiv, if_neg (expRom_ne_zero i hi), logRom_expRom i hi, logRom_expRom j hj]

theorem gfmul_comm (a b : Byte) : gfmul a b = gfmul b a := by
  simp only [gfmul, or_comm, Nat.add_comm]

theorem gfmul_assoc (a b c : Byte) : gfmul (gfmul a b) c = gfmul a (gfmul b c) := by
  obtain rfl | ⟨i, hi, rfl⟩ := eq_zero_or_exists_expRom a
  · simp only [zero_gfmul]
  obtain rfl | ⟨j, hj, rfl⟩ := eq_zero_or_exists_expRom b
  · simp only [zero_gfmul, gfmul_zero]
  obtain rfl | ⟨k, hk, rfl⟩ := eq_zero_or_exists_expRom c
  · simp only [gfmul_zero]
  have sums : ((i + j) % 255 + k) % 255 = (i + (j + k) % 255) % 255 := by omega
  rw [gfmul_expRom hi hj, gfmul_expRom hj hk, gfmul_expRom (by omega) hk, gfmul_expRom hi (by omega), sums]

theorem gfmul_one (a : Byte) : gfmul a 1 = a := by
  obtain rfl | ⟨i, hi, rfl⟩ := eq_zero_or_exists_expRom a
  · exact zero_gfmul 1
  · calc gfmul (expRom i) (expRom 0) = expRom ((i + 0) % 255) := gfmul_expRom hi (by decide)
      _ = expRom i := by rw [Nat.add_zero, Nat.mod_eq_of_lt hi]

theorem gfmul_ne_zero {a b : Byte} (ha : a ≠ 0) (hb : b ≠ 0) : gfmul a b ≠ 0 := by
  obtain ⟨i, hi, rfl⟩ := exists_expRom_of_ne_zero ha
  obtain ⟨j, hj, rfl⟩ := exists_expRom_of_ne_zero hb
  rw [gfmul_expRom hi hj]
  exact expRom_ne_zero _ (by omega)

/-- Division by a non-zero element undoes the product with it (R101, R102). -/
theorem gfmul_gfdiv_cancel (a : Byte) {b : Byte} (hb : b ≠ 0) : gfmul (gfdiv a b) b = a := by
  obtain ⟨j, hj, rfl⟩ := exists_expRom_of_ne_zero hb
  obtain rfl | ⟨i, hi, rfl⟩ := eq_zero_or_exists_expRom a
  · exact zero_gfmul _
  · have exponent : ((((i : Int) - (j : Int)) % 255).toNat + j) % 255 = i := by omega
    rw [gfdiv_expRom hi hj, gfmul_expRom (by omega) hj, exponent]

theorem gfdiv_self {a : Byte} (ha : a ≠ 0) : gfdiv a a = 1 := by
  obtain ⟨i, hi, rfl⟩ := exists_expRom_of_ne_zero ha
  rw [gfdiv_expRom hi hi, Int.sub_self]
  rfl

/-! ## The polynomial product is linear -/

/-- A summand that a sum of two bits selects is the sum of those that the bits select. -/
theorem ite_xor_eq (p q : Bool) (c : Byte) :
    (if p ^^ q then c else 0) = (if p then c else 0) ^^^ (if q then c else 0) := by
  cases p <;> cases q <;> simp

/-- Multiplying by x shifts, and adds PRIM when x^8 arises (R98). -/
theorem xtime_eq_xor (v : Byte) : xtime v = (v <<< 1) ^^^ (if v.getLsbD 7 then 0x1D else 0) := by
  unfold xtime
  split
  · rfl
  · exact BitVec.xor_zero.symm

theorem xtime_zero : xtime 0 = 0 := by decide

theorem xtime_xor (u v : Byte) : xtime (u ^^^ v) = xtime u ^^^ xtime v := by
  rw [xtime_eq_xor, xtime_eq_xor u, xtime_eq_xor v, BitVec.getLsbD_xor, BitVec.shiftLeft_xor_distrib, ite_xor_eq]
  ac_rfl

theorem polyProduct_zero_left (b : Byte) (n : Nat) : polyProduct 0 b n = 0 := by
  induction n generalizing b with
  | zero => rfl
  | succ n ih =>
    rw [polyProduct, ih, xtime_zero, ite_self]
    exact BitVec.xor_self

/-- The product with x · a is x times the product with a. -/
theorem polyProduct_xtime (a b : Byte) (n : Nat) : polyProduct (xtime a) b n = xtime (polyProduct a b n) := by
  induction n generalizing b with
  | zero => exact xtime_zero.symm
  | succ n ih => rw [polyProduct, polyProduct, xtime_xor, ih, apply_ite xtime, xtime_zero]

theorem polyProduct_xor (a b c : Byte) (n : Nat) :
    polyProduct a (b ^^^ c) n = polyProduct a b n ^^^ polyProduct a c n := by
  induction n generalizing b c with
  | zero => exact BitVec.xor_zero.symm
  | succ n ih =>
    rw [polyProduct, polyProduct, polyProduct, BitVec.ushiftRight_xor_distrib, ih, xtime_xor, BitVec.getLsbD_xor,
      ite_xor_eq]
    ac_rfl

/-- A byte is the polynomial it stands for (R96). -/
theorem polyProduct_one_left : ∀ b : Byte, polyProduct 1 b 8 = b := by decide +kernel

/-! ## The two products are equal -/

/-- Multiplying a power of ALPHA by x multiplies its products by x (R98, R100). -/
theorem gfmul_xtime_expRom {i : Nat} (hi : i < 255) (b : Byte) :
    gfmul (xtime (expRom i)) b = xtime (gfmul (expRom i) b) := by
  obtain rfl | ⟨j, hj, rfl⟩ := eq_zero_or_exists_expRom b
  · rw [gfmul_zero, gfmul_zero, xtime_zero]
  · have exponent : ((i + 1) % 255 + j) % 255 = ((i + j) % 255 + 1) % 255 := by omega
    rw [← expRom_add_one_mod i hi, gfmul_expRom (by omega) hj, gfmul_expRom hi hj, exponent,
      expRom_add_one_mod _ (by omega)]

/-- Both products with a power of ALPHA start from b and are multiplied by x at each step. -/
theorem gfmul_expRom_eq_polyProduct (b : Byte) {i : Nat} (hi : i < 255) :
    gfmul (expRom i) b = polyProduct (expRom i) b 8 := by
  induction i with
  | zero =>
    calc gfmul 1 b = b := (gfmul_comm 1 b).trans (gfmul_one b)
      _ = polyProduct 1 b 8 := (polyProduct_one_left b).symm
  | succ i ih =>
    have next : expRom (i + 1) = xtime (expRom i) := by
      rw [← expRom_add_one_mod i (by omega), Nat.mod_eq_of_lt hi]
    rw [next, gfmul_xtime_expRom (by omega), ih (by omega), polyProduct_xtime]

/-- Settles O20: the recurrence holds of every entry, and before the last one it does not wrap. -/
theorem expTableFollowsRecurrence : Obligations.ExpTableFollowsRecurrence := by
  refine ⟨rfl, rfl, fun i hi => ?_⟩
  rw [← expRom_add_one_mod i (by omega), Nat.mod_eq_of_lt (by omega)]

/-- Settles O21: both products are 0 for a = 0, and equal for every power of ALPHA. -/
theorem tableProductIsPolynomialProduct : Obligations.TableProductIsPolynomialProduct := by
  intro a b
  obtain rfl | ⟨i, hi, rfl⟩ := eq_zero_or_exists_expRom a
  · rw [zero_gfmul, polyProduct_zero_left]
  · exact gfmul_expRom_eq_polyProduct b hi

/-- The polynomial product distributes over the sum, so the product by tables does (R102). -/
theorem gfmul_gfadd (a b c : Byte) : gfmul a (gfadd b c) = gfadd (gfmul a b) (gfmul a c) := by
  simp only [tableProductIsPolynomialProduct a, gfadd, polyProduct_xor]

/-- Settles O22: the sum is xor, the product's own laws are those of exponents, and the product distributes as the
polynomial product does. -/
theorem fieldLaws : Obligations.FieldLaws :=
  ⟨BitVec.xor_assoc, BitVec.xor_comm, fun _ => ⟨BitVec.xor_zero, BitVec.xor_self⟩, gfmul_assoc, gfmul_comm,
    fun a => ⟨gfmul_one a, gfmul_zero a⟩, gfmul_gfadd, fun a _ => gfmul_gfdiv_cancel a, fun _ => gfdiv_self,
    fun _ _ => gfmul_ne_zero, fun _ _ hi hj => (gfmul_expRom hi hj).symm⟩

end Sys2Proof.Machine
end

section
/-!
PROOF. Proofs/GfCommands.lean: what GF_ADD, GF_MUL, GF_DIV and GF_EXP write (40_gf_arith.md R103 to R107), the errors that
the operands alone decide (R106, R108, 41_generator.md R118), and the write set of every command (60_exceptions.md R161,
R162).
-/
namespace Sys2Proof.Machine

/-! ## The GF commands on success -/

/-- Settles O14: the meaning of GF_ADD. -/
theorem gfAddCompletes : Obligations.GfAddCompletes := fun _ _ _ => rfl

/-- Settles O15: the meaning of GF_MUL. -/
theorem gfMulCompletes : Obligations.GfMulCompletes := fun _ _ _ => rfl

/-- Settles O17: the meaning of GF_EXP. -/
theorem gfExpCompletes : Obligations.GfExpCompletes := fun _ _ => rfl

/-- Settles O16: the divisor passes its check, and the product with it undoes the division. -/
theorem gfDivCompletes : Obligations.GfDivCompletes := by
  intro a b s hb
  have meaning : exec (.gfDiv a b) s = .next (s.completeWith (gfdiv a b)) := congrArg Host.Outcome.next (if_neg hb)
  exact ⟨meaning, gfmul_gfdiv_cancel a hb⟩

/-! ## Errors by the operands alone -/

/-- GEN_POLY of a degree outside 1..NMAX fails (R118). -/
theorem exec_genPoly_of_illegal {n : Byte} (s : State) (h : n.toNat = 0 ∨ 30 < n.toNat) :
    exec (.genPoly n) s = .next (s.raiseError .invalidDegree) := by
  have illegal : degreeError n = some .invalidDegree := if_pos h
  simp only [exec, execGenPoly, illegal]

/-- Settles O19: each check fails, and an error writes the status alone (R162). -/
theorem operandValueErrors : Obligations.OperandValueErrors := by
  intro s
  have divZero (a : Byte) : exec (.gfDiv a 0) s = .next (s.raiseError .divZero) :=
    congrArg Host.Outcome.next (if_pos rfl)
  have logZero : exec (.gfLog 0) s = .next (s.raiseError .logZero) := congrArg Host.Outcome.next (if_pos rfl)
  exact ⟨divZero, logZero, fun n => exec_genPoly_of_illegal s⟩

/-! ## Write sets -/

/-- Settles O37: by the ways a command can end. An error writes less than any command may; each success writes its own
fields. -/
theorem commandWriteSets : Obligations.CommandWriteSets := by
  intro i s t h
  have ends := exec_endsIn h
  obtain ⟨hbusy, hdone, -⟩ := ends.flags
  refine ⟨hbusy, hdone, ?_⟩
  cases ends with
  | failed _ c => cases i <;> rfl
  | value _ hi v =>
    cases i with
    | genPoly | rsBlock | rsEncode => cases hi
    | _ => rfl
  | generator n hn => rfl
  | block n hn => rw [State.commitBlock_eq]
  | encode v e r hr hc => rw [State.commitEncode_eq]

end Sys2Proof.Machine
end

section
/-!
PROOF. Proofs/GeneratorPolynomial.lean: the generator polynomial (41_generator.md). One round of GenPoly multiplies by a
linear factor (R117), said once of the values and once of the coefficients. The values give the product and the roots of
R116, the coefficients give the consequences of R120.
-/
namespace Sys2Proof.Machine

/-! ## Field facts -/

theorem zero_gfadd (a : Byte) : gfadd 0 a = a := BitVec.zero_xor

theorem gfadd_zero (a : Byte) : gfadd a 0 = a := BitVec.xor_zero

/-- Addition is subtraction (R99). -/
theorem gfadd_eq_zero {a b : Byte} : gfadd a b = 0 ↔ a = b := BitVec.xor_eq_zero_iff

theorem gfadd_gfmul (a b c : Byte) : gfmul (gfadd a b) c = gfadd (gfmul a c) (gfmul b c) := by
  rw [gfmul_comm, gfmul_gfadd, gfmul_comm c a, gfmul_comm c b]

theorem gfmul_right_comm (a b c : Byte) : gfmul (gfmul a b) c = gfmul (gfmul a c) b := by
  rw [gfmul_assoc, gfmul_comm b c, ← gfmul_assoc]

theorem gfmul_eq_zero {a b : Byte} : gfmul a b = 0 ↔ a = 0 ∨ b = 0 := by
  refine ⟨fun h => Decidable.byContradiction fun hab => ?_, fun h => if_pos h⟩
  obtain ⟨ha, hb⟩ := not_or.mp hab
  exact gfmul_ne_zero ha hb h

/-! ## Values -/

/-- Horner's rule for coefficients given from x^0 up. -/
theorem evalStream_reverse_cons (c : Byte) (cs : List Byte) (x : Byte) :
    evalStream (c :: cs).reverse x = gfadd (gfmul (evalStream cs.reverse x) x) c := by
  rw [List.reverse_cons, evalStream, List.foldl_append]
  rfl

/-- One round of GenPoly multiplies the value by x + c, and adds the coefficient carried in (R117). -/
theorem evalStream_mulLinear (c prev : Byte) (gs : List Byte) (x : Byte) :
    evalStream (mulLinear c prev gs).reverse x = gfadd prev (gfmul (evalStream gs.reverse x) (gfadd x c)) := by
  induction gs generalizing prev with
  | nil =>
    show gfadd (gfmul 0 x) prev = gfadd prev (gfmul 0 (gfadd x c))
    rw [zero_gfmul, zero_gfmul, zero_gfadd, gfadd_zero]
  | cons g gs ih =>
    rw [mulLinear, evalStream_reverse_cons, evalStream_reverse_cons, ih]
    generalize evalStream gs.reverse x = p
    calc gfadd (gfmul (gfadd g (gfmul p (gfadd x c))) x) (gfadd prev (gfmul g c))
        = gfadd (gfadd (gfmul g x) (gfmul (gfmul p x) (gfadd x c))) (gfadd prev (gfmul g c)) := by
          rw [gfadd_gfmul, gfmul_right_comm]
      _ = gfadd prev (gfadd (gfmul (gfmul p x) (gfadd x c)) (gfadd (gfmul g x) (gfmul g c))) := by
          unfold gfadd; ac_rfl
      _ = gfadd prev (gfmul (gfadd (gfmul p x) g) (gfadd x c)) := by rw [gfadd_gfmul, gfmul_gfadd g]

/-- The next generator has the factor x + ALPHA^n more (R116). -/
theorem evalStream_genPoly_succ (n : Nat) (x : Byte) :
    evalStream (genPoly (n + 1)).reverse x = gfmul (evalStream (genPoly n).reverse x) (gfadd x (expRom n)) := by
  rw [genPoly, evalStream_mulLinear, zero_gfadd]

theorem evalStream_genPoly_zero (x : Byte) : evalStream (genPoly 0).reverse x = 1 := by
  show gfadd (gfmul 0 x) 1 = 1
  rw [zero_gfmul, zero_gfadd]

/-- The generator is the product of its linear factors (R116). -/
theorem evalStream_genPoly_eq_product (n : Nat) (x : Byte) :
    evalStream (genPoly n).reverse x = (List.range n).foldl (fun p i => gfmul p (gfadd x (expRom i))) 1 := by
  induction n with
  | zero => exact evalStream_genPoly_zero x
  | succ n ih => rw [evalStream_genPoly_succ, ih, List.range_succ, List.foldl_append]; rfl

/-- A root of the generator is a root of one of its factors, as GF(256) has no zero divisors (R102, R116). -/
theorem evalStream_genPoly_eq_zero (n : Nat) (x : Byte) :
    evalStream (genPoly n).reverse x = 0 ↔ ∃ i < n, x = expRom i := by
  induction n with
  | zero => simp [evalStream_genPoly_zero]
  | succ n ih => rw [evalStream_genPoly_succ, gfmul_eq_zero, ih, gfadd_eq_zero, Nat.exists_lt_succ_right]

/-- Settles O25: length and leading coefficient by the construction, product and roots by the value of one round. -/
theorem generatorIsProductOfLinearFactors : Obligations.GeneratorIsProductOfLinearFactors := fun n _ _ =>
  ⟨length_genPoly n, coeff_genPoly_self n, evalStream_genPoly_eq_product n, evalStream_genPoly_eq_zero n⟩

/-! ## Coefficients -/

/-- Above its degree a polynomial has the coefficient 0 (R17). -/
theorem coeff_of_length_le {p : List Byte} {j : Nat} (h : p.length ≤ j) : coeff p j = 0 := by
  rw [coeff, List.getD_eq_getElem?_getD, List.getElem?_eq_none h]
  rfl

theorem coeff_mulLinear_zero (c prev : Byte) (gs : List Byte) :
    coeff (mulLinear c prev gs) 0 = gfadd prev (gfmul (coeff gs 0) c) := by
  cases gs with
  | nil => exact ((congrArg _ (zero_gfmul c)).trans (gfadd_zero prev)).symm
  | cons g gs => rfl

theorem coeff_mulLinear_succ (c prev : Byte) (gs : List Byte) (j : Nat) :
    coeff (mulLinear c prev gs) (j + 1) = gfadd (coeff gs j) (gfmul (coeff gs (j + 1)) c) := by
  induction gs generalizing prev j with
  | nil => exact ((congrArg _ (zero_gfmul c)).trans (gfadd_zero 0)).symm
  | cons g gs ih =>
    cases j with
    | zero => exact coeff_mulLinear_zero c g gs
    | succ j => exact ih g j

theorem coeff_genPoly_succ_zero (n : Nat) :
    coeff (genPoly (n + 1)) 0 = gfmul (coeff (genPoly n) 0) (expRom n) := by
  rw [genPoly, coeff_mulLinear_zero, zero_gfadd]

theorem coeff_genPoly_succ_succ (n j : Nat) :
    coeff (genPoly (n + 1)) (j + 1) = gfadd (coeff (genPoly n) j) (gfmul (coeff (genPoly n) (j + 1)) (expRom n)) :=
  coeff_mulLinear_succ _ _ _ j

/-- The sum 0 + 1 + ... + (n - 1) grows by n. -/
theorem triangle_add_one (n : Nat) : (n + 1) * (n + 1 - 1) / 2 = n * (n - 1) / 2 + n := by
  cases n with
  | zero => rfl
  | succ m =>
    have twice : (m + 1 + 1) * (m + 1) = (m + 1) * m + 2 * (m + 1) := by
      rw [Nat.mul_comm (m + 1) m, ← Nat.add_mul]
    rw [Nat.add_sub_cancel, Nat.add_sub_cancel, twice, Nat.add_mul_div_left _ _ (by decide)]

/-- The constant coefficient is the product of the roots, whose exponents add up to n (n - 1) / 2 (R120). -/
theorem coeff_genPoly_zero {n : Nat} (hn : n ≤ 255) :
    coeff (genPoly n) 0 = expRom (n * (n - 1) / 2 % 255) := by
  induction n with
  | zero => rfl
  | succ n ih =>
    rw [coeff_genPoly_succ_zero, ih (by omega), gfmul_expRom (Nat.mod_lt _ (by decide)) hn, Nat.mod_add_mod,
      triangle_add_one]

/-- No coefficient of a generator up to degree NMAX is 0: checked coefficient by coefficient, as in R120. -/
theorem coeff_genPoly_ne_zero : ∀ n ≤ 30, ∀ j ≤ n, coeff (genPoly n) j ≠ 0 := by decide +kernel

/-! ## The product with a linear factor -/

theorem foldl_gfadd_eq_zero (f : Nat → Byte) (l : List Nat) (h : ∀ i ∈ l, f i = 0) :
    l.foldl (fun acc i => gfadd acc (f i)) 0 = 0 := by
  induction l with
  | nil => rfl
  | cons i l ih =>
    obtain ⟨hi, hl⟩ := List.forall_mem_cons.mp h
    rw [List.foldl_cons, hi, gfadd_zero]
    exact ih hl

theorem productCoeff_linear_zero (p : List Byte) (c : Byte) : productCoeff p [c, 1] 0 = gfmul (coeff p 0) c :=
  zero_gfadd _

/-- Of the sum for x^(j+1) only the terms with x and with c are left. -/
theorem productCoeff_linear_succ (p : List Byte) (c : Byte) (j : Nat) :
    productCoeff p [c, 1] (j + 1) = gfadd (coeff p j) (gfmul (coeff p (j + 1)) c) := by
  have high (i : Nat) (hi : i ∈ List.range j) : gfmul (coeff p i) (coeff [c, 1] (j + 1 - i)) = 0 := by
    have above : 2 ≤ j + 1 - i := by
      have hij := List.mem_range.mp hi
      omega
    rw [coeff_of_length_le (p := [c, 1]) above, gfmul_zero]
  have withX : coeff [c, 1] (j + 1 - j) = 1 := by rw [Nat.add_sub_cancel_left]; rfl
  have withC : coeff [c, 1] (j + 1 - (j + 1)) = c := by rw [Nat.sub_self]; rfl
  rw [productCoeff, List.range_succ, List.range_succ, List.foldl_append, List.foldl_append,
    foldl_gfadd_eq_zero _ _ high]
  simp only [List.foldl_cons, List.foldl_nil, withX, withC, gfmul_one, zero_gfadd]

/-- The next generator is the product with x + ALPHA^n, coefficient by coefficient (R120). -/
theorem coeff_genPoly_succ (n j : Nat) :
    coeff (genPoly (n + 1)) j = productCoeff (genPoly n) [expRom n, 1] j := by
  cases j with
  | zero => rw [coeff_genPoly_succ_zero, productCoeff_linear_zero]
  | succ j => rw [coeff_genPoly_succ_succ, productCoeff_linear_succ]

/-- Settles O26: the roots by the values, the coefficients by one round of GenPoly, and that none is 0 by the check. -/
theorem generatorConsequences : Obligations.GeneratorConsequences :=
  ⟨fun n _ hn => ⟨fun i hi => (evalStream_genPoly_eq_zero n _).mpr ⟨i, hi, rfl⟩, coeff_genPoly_self n,
    coeff_genPoly_ne_zero n hn, coeff_genPoly_zero (by omega)⟩, fun n _ _ => coeff_genPoly_succ n⟩

/-! ## GEN_POLY -/

/-- Settles O23: a legal degree passes the check. -/
theorem genPolyCompletes : Obligations.GenPolyCompletes := by
  intro n s h1 h30
  have legal : degreeError n = none := degreeError_eq_none.mpr ⟨h1, h30⟩
  simp only [exec, execGenPoly, legal]
  rfl

end Sys2Proof.Machine
end

section
/-!
PROOF. Proofs/BlockRemainder.lean: the EC codewords of a block are the remainder of d(x) x^n by the generator
(42_rs_encode.md R126 to R128), and the codeword polynomial is a multiple of the generator, so it is 0 at the generator's
roots (R129). One step of the division is said once, of the coefficients, and the data are taken in one by one.
-/
namespace Sys2Proof.Machine

/-! ## Coefficients -/

/-- The coefficients of x p(x). -/
def timesX (p : Nat → Byte) : Nat → Byte
  | 0 => 0
  | j + 1 => p j

/-- A listed coefficient. -/
theorem getElem?_eq_coeff {p : List Byte} {j : Nat} (h : j < p.length) : p[j]? = some (coeff p j) := by
  rw [coeff, List.getD_eq_getElem?_getD, List.getElem?_eq_getElem h]
  rfl

theorem coeff_zero_cons (p : List Byte) (j : Nat) : coeff (0 :: p) j = timesX (coeff p) j := by
  cases j <;> rfl

theorem gfadd_comm (a b : Byte) : gfadd a b = gfadd b a := BitVec.xor_comm a b

theorem gfadd_gfadd_cancel_right (a b : Byte) : gfadd (gfadd a b) b = a := by
  rw [gfadd, gfadd, BitVec.xor_assoc, BitVec.xor_self, BitVec.xor_zero]

theorem timesX_gfadd (p q : Nat → Byte) (j : Nat) :
    timesX (fun i => gfadd (p i) (q i)) j = gfadd (timesX p j) (timesX q j) := by
  cases j with
  | zero => exact (gfadd_zero 0).symm
  | succ j => rfl

theorem foldl_gfadd_eq_gfadd_foldl (f : Nat → Byte) (l : List Nat) (b : Byte) :
    l.foldl (fun acc i => gfadd acc (f i)) b = gfadd b (l.foldl (fun acc i => gfadd acc (f i)) 0) := by
  induction l generalizing b with
  | nil => exact (gfadd_zero b).symm
  | cons i l ih =>
    rw [List.foldl_cons, List.foldl_cons, ih, ih (gfadd 0 (f i)), zero_gfadd]
    exact BitVec.xor_assoc b (f i) _

theorem productCoeff_nil (q : List Byte) (j : Nat) : productCoeff [] q j = 0 :=
  foldl_gfadd_eq_zero _ _ fun _ _ => zero_gfmul _

/-- (a + x p(x)) q(x) = a q(x) + x p(x) q(x). -/
theorem productCoeff_cons (a : Byte) (p q : List Byte) (j : Nat) :
    productCoeff (a :: p) q j = gfadd (gfmul a (coeff q j)) (timesX (productCoeff p q) j) := by
  rw [productCoeff, List.range_succ_eq_map, List.foldl_cons, foldl_gfadd_eq_gfadd_foldl, zero_gfadd, List.foldl_map]
  cases j with
  | zero => rfl
  | succ j =>
    simp only [productCoeff, timesX, Nat.succ_eq_add_one, Nat.add_sub_add_right]
    rfl

/-! ## One step of the division -/

/-- The top register R[n-1] is the coefficient of x^n of x R(x). -/
theorem getLastD_eq_timesX (r : List Byte) : r.getLastD 0 = timesX (coeff r) r.length := by
  cases h : r.length with
  | zero => rw [List.length_eq_zero_iff.mp h]; rfl
  | succ m => rw [List.getLastD_eq_getLast?, List.getLast?_eq_getElem?, h]; exact (List.getD_eq_getElem?_getD ..).symm

/-- The register's new low coefficients: x R(x) + f g(x), where f is the step's quotient coefficient (R128). -/
theorem coeff_remStep (g : List Byte) {r : List Byte} (d : Byte) {j : Nat} (hj : j < r.length)
    (hg : r.length ≤ g.length) :
    coeff (remStep (g.take r.length) r d) j
      = gfadd (timesX (coeff r) j) (gfmul (gfadd d (r.getLastD 0)) (coeff g j)) := by
  have shifted : (0 :: r.dropLast)[j]? = some (timesX (coeff r) j) := by
    cases j with
    | zero => rfl
    | succ i =>
      rw [List.getElem?_cons_succ, List.getElem?_dropLast, if_pos (by omega), getElem?_eq_coeff (by omega)]
      rfl
  have low : (g.take r.length)[j]? = some (coeff g j) := by
    rw [List.getElem?_take_of_lt hj, getElem?_eq_coeff (by omega)]
  rw [coeff, List.getD_eq_getElem?_getD, remStep, List.getElem?_zipWith, shifted, low]
  rfl

/-- Taking in the data codeword d: x R(x) + d x^n = f g_n(x) + R'(x) (R128). -/
theorem timesX_gfadd_eq_remStep {n : Nat} {r : List Byte} (hr : r.length = n) (hn : 1 ≤ n) (d : Byte) (j : Nat) :
    gfadd (timesX (coeff r) j) (if j = n then d else 0)
      = gfadd (gfmul (gfadd d (r.getLastD 0)) (coeff (genPoly n) j))
          (coeff (remStep ((genPoly n).take n) r d) j) := by
  have low : ((genPoly n).take n).length = n := by simp
  have next : (remStep ((genPoly n).take n) r d).length = n :=
    (length_remStep _ r d (hr.trans low.symm) (by omega)).trans low
  rcases Nat.lt_trichotomy j n with h | rfl | h
  · subst hr
    rw [if_neg (by omega), gfadd_zero, coeff_remStep _ d h (by simp), gfadd_comm, gfadd_gfadd_cancel_right]
  · rw [if_pos rfl, coeff_genPoly_self, gfmul_one, coeff_of_length_le (by omega), gfadd_zero, getLastD_eq_timesX, hr,
      gfadd_comm]
  · obtain ⟨i, rfl⟩ : ∃ i, j = i + 1 := ⟨j - 1, by omega⟩
    rw [if_neg (by omega), coeff_of_length_le (p := genPoly n) (by simp; omega), coeff_of_length_le (by omega),
      gfmul_zero, timesX, coeff_of_length_le (by omega)]

/-- Adding d to the coefficient of x^n. -/
theorem coeff_replicate_append_cons (d : Byte) (cs : List Byte) (n j : Nat) :
    coeff (List.replicate n 0 ++ d :: cs) j
      = gfadd (coeff (List.replicate n 0 ++ 0 :: cs) j) (if j = n then d else 0) := by
  induction n generalizing j with
  | zero =>
    cases j with
    | zero => exact (zero_gfadd d).symm
    | succ j => exact (gfadd_zero _).symm
  | succ n ih =>
    cases j with
    | zero => exact (gfadd_zero 0).symm
    | succ j =>
      simp only [Nat.add_right_cancel_iff]
      exact ih j

/-- The data with the codeword d after them: x d(x) x^n + d x^n (R125). -/
theorem coeff_shiftedData_concat (ds : List Byte) (d : Byte) (n j : Nat) :
    coeff (shiftedData (ds ++ [d]) n) j
      = gfadd (timesX (coeff (shiftedData ds n)) j) (if j = n then d else 0) := by
  have shifted : 0 :: shiftedData ds n = List.replicate n 0 ++ 0 :: ds.reverse := by
    rw [shiftedData, ← List.cons_append, ← List.replicate_succ, List.replicate_succ', List.append_assoc]
    rfl
  rw [← coeff_zero_cons, shifted, shiftedData, List.reverse_append]
  exact coeff_replicate_append_cons d _ n j

/-! ## The whole division -/

/-- The register after one more data codeword. -/
theorem reverse_rsRem_concat (ds : List Byte) (d : Byte) (n : Nat) :
    (rsRem (ds ++ [d]) n).reverse = remStep ((genPoly n).take n) (rsRem ds n).reverse d := by
  simp [rsRem]

/-- Dividing d(x) x^n by g_n(x) leaves the register's coefficients as remainder (R126). -/
theorem exists_quotient (ds : List Byte) {n : Nat} (hn : 1 ≤ n) :
    ∃ q : List Byte, ∀ j : Nat,
      coeff (shiftedData ds n) j = gfadd (productCoeff q (genPoly n) j) (coeff (rsRem ds n).reverse j) := by
  induction hrev : ds.reverse generalizing ds with
  | nil =>
    obtain rfl : ds = [] := List.reverse_eq_nil_iff.mp hrev
    refine ⟨[], fun j => ?_⟩
    rw [productCoeff_nil, zero_gfadd]
    simp [shiftedData, rsRem]
  | cons d cs ih =>
    obtain rfl : ds = cs.reverse ++ [d] := List.reverse_eq_cons_iff.mp hrev
    obtain ⟨q, hq⟩ := ih cs.reverse cs.reverse_reverse
    have hr : (rsRem cs.reverse n).reverse.length = n := by simp
    refine ⟨gfadd d ((rsRem cs.reverse n).reverse.getLastD 0) :: q, fun j => ?_⟩
    have step := timesX_gfadd_eq_remStep hr hn d j
    rw [coeff_shiftedData_concat, funext hq, timesX_gfadd, productCoeff_cons, reverse_rsRem_concat]
    unfold gfadd at step ⊢
    rw [BitVec.xor_assoc, step]
    ac_rfl

/-- Settles O27: the division of the data by the generator, codeword by codeword. -/
theorem ecCodewordsAreRemainder : Obligations.EcCodewordsAreRemainder := fun ds n h1 _ =>
  ⟨length_rsRem ds n, exists_quotient ds h1⟩

/-! ## The codeword polynomial -/

/-- The low coefficients of a polynomial and the rest of it. -/
theorem coeff_append (low high : List Byte) (j : Nat) :
    coeff (low ++ high) j = gfadd (coeff (List.replicate low.length 0 ++ high) j) (coeff low j) := by
  induction low generalizing j with
  | nil => exact (gfadd_zero _).symm
  | cons c low ih =>
    cases j with
    | zero => exact (zero_gfadd c).symm
    | succ j => exact ih j

/-- Data and EC codewords together: d(x) x^n + r(x) (R129). -/
theorem coeff_codeword (ds : List Byte) (n j : Nat) :
    coeff (ds ++ rsRem ds n).reverse j = gfadd (coeff (shiftedData ds n) j) (coeff (rsRem ds n).reverse j) := by
  rw [List.reverse_append, coeff_append, List.length_reverse, length_rsRem, shiftedData]

/-- The codeword polynomial is the quotient times the generator (R129). -/
theorem exists_codeword_eq_product (ds : List Byte) {n : Nat} (hn : 1 ≤ n) :
    ∃ q : List Byte, ∀ j : Nat, coeff (ds ++ rsRem ds n).reverse j = productCoeff q (genPoly n) j := by
  obtain ⟨q, hq⟩ := exists_quotient ds hn
  exact ⟨q, fun j => by rw [coeff_codeword, hq, gfadd_gfadd_cancel_right]⟩

/-! ## Values of a product -/

/-- The value at x of the polynomial with the coefficients p 0, ..., p (m - 1), by Horner's rule. -/
def valueOf (x : Byte) : Nat → (Nat → Byte) → Byte
  | 0, _ => 0
  | m + 1, p => gfadd (gfmul (valueOf x m fun j => p (j + 1)) x) (p 0)

/-- A polynomial's value may be taken from more coefficients than it has. -/
theorem valueOf_coeff (x : Byte) {p : List Byte} {m : Nat} (h : p.length ≤ m) :
    valueOf x m (coeff p) = evalStream p.reverse x := by
  induction m generalizing p with
  | zero => rw [List.length_eq_zero_iff.mp (Nat.le_zero.mp h)]; rfl
  | succ m ih =>
    cases p with
    | nil =>
      have tail : valueOf x m (coeff []) = 0 := ih (p := []) (Nat.zero_le m)
      show gfadd (gfmul (valueOf x m (coeff [])) x) 0 = 0
      rw [tail, zero_gfmul, gfadd_zero]
    | cons c cs =>
      rw [evalStream_reverse_cons, ← ih (Nat.le_of_succ_le_succ h)]
      rfl

theorem valueOf_gfadd (x : Byte) (m : Nat) (p q : Nat → Byte) :
    valueOf x m (fun j => gfadd (p j) (q j)) = gfadd (valueOf x m p) (valueOf x m q) := by
  induction m generalizing p q with
  | zero => exact (gfadd_zero 0).symm
  | succ m ih =>
    rw [valueOf, valueOf, valueOf, ih, gfadd_gfmul]
    unfold gfadd
    ac_rfl

theorem valueOf_gfmul (x a : Byte) (m : Nat) (p : Nat → Byte) :
    valueOf x m (fun j => gfmul a (p j)) = gfmul a (valueOf x m p) := by
  induction m generalizing p with
  | zero => exact (gfmul_zero a).symm
  | succ m ih => rw [valueOf, valueOf, ih, gfmul_assoc, gfmul_gfadd]

/-- The value of a product is the product of the values. -/
theorem valueOf_productCoeff (x : Byte) (q g : List Byte) {m : Nat} (hm : q.length + g.length ≤ m) :
    valueOf x m (productCoeff q g) = gfmul (evalStream q.reverse x) (evalStream g.reverse x) := by
  induction q generalizing m with
  | nil =>
    rw [show productCoeff [] g = coeff [] from funext fun j => productCoeff_nil g j, valueOf_coeff x (Nat.zero_le m)]
    exact (zero_gfmul _).symm
  | cons a q ih =>
    obtain ⟨k, rfl⟩ : ∃ k, m = k + 1 := ⟨m - 1, by rw [List.length_cons] at hm; omega⟩
    rw [List.length_cons] at hm
    rw [funext (productCoeff_cons a q g), valueOf_gfadd, valueOf_gfmul, valueOf_coeff x (by omega),
      valueOf, evalStream_reverse_cons]
    have tail : (valueOf x k fun j => timesX (productCoeff q g) (j + 1))
      = gfmul (evalStream q.reverse x) (evalStream g.reverse x) := ih (by omega)
    rw [tail, gfadd_gfmul, gfmul_right_comm, timesX, gfadd_zero, gfadd_comm]

/-- A multiple of a polynomial is 0 at its roots. -/
theorem evalStream_eq_zero_of_product {c q g : List Byte} {x : Byte} (h : ∀ j, coeff c j = productCoeff q g j)
    (hx : evalStream g.reverse x = 0) : evalStream c.reverse x = 0 := by
  have enough : c.length ≤ c.length + (q.length + g.length) := Nat.le_add_right _ _
  calc evalStream c.reverse x
    _ = valueOf x (c.length + (q.length + g.length)) (productCoeff q g) := by
      rw [← valueOf_coeff x enough, funext h]
    _ = gfmul (evalStream q.reverse x) (evalStream g.reverse x) :=
      valueOf_productCoeff x q g (Nat.le_add_left _ _)
    _ = 0 := by rw [hx, gfmul_zero]

/-- Settles O28: the codeword polynomial is a multiple of the generator, whose roots are ALPHA^0, ..., ALPHA^(n-1). -/
theorem codewordIsMultipleOfGenerator : Obligations.CodewordIsMultipleOfGenerator := by
  intro ds n h1 _
  obtain ⟨q, hq⟩ := exists_codeword_eq_product ds h1
  refine ⟨fun i hi => ?_, q, hq⟩
  have zero := evalStream_eq_zero_of_product hq ((evalStream_genPoly_eq_zero n _).mpr ⟨i, hi, rfl⟩)
  rwa [List.reverse_reverse] at zero

end Sys2Proof.Machine
end

section
/-!
PROOF. Proofs/EncodeCommands.lean: RS_BLOCK's failed checks (42_rs_encode.md R131 to R133), what RS_BLOCK and RS_ENCODE
leave unchanged of CWMEM (R145), what a successful RS_ENCODE keeps (R144), and a one-block symbol (R147).
-/
namespace Sys2Proof.Machine

/-! ## RS_BLOCK: its failed checks -/

/-- An RS_BLOCK that fails a check ends with that error (R132). -/
theorem exec_rsBlock_of_failed {n : Byte} {s : State} {c : ErrCode} (h : s.blockError n = some c) :
    exec (.rsBlock n) s = .next (s.raiseError c) := by
  simp only [exec, execRsBlock, h]

/-- Past the degree check only the ranges are left to check (R153). -/
theorem State.blockError_of_degree {s : State} {n : Byte} (h1 : 1 ≤ n.toNat) (h30 : n.toNat ≤ 30) :
    s.blockError n = s.rangeError s.len.toNat n.toNat := by
  rw [State.blockError, degreeError_eq_none.mpr ⟨h1, h30⟩]

/-- Settles O30: the first check that fails gives the error, which writes the status alone. -/
theorem rsBlockErrors : Obligations.RsBlockErrors := by
  refine fun n s => ⟨fun hn => ?_, fun h1 h30 hout => ?_, fun h1 h30 hsrc hdst hk hsd hds => ?_⟩
  · have illegal : degreeError n = some .invalidDegree := if_pos hn
    exact exec_rsBlock_of_failed (c := .invalidDegree) (by rw [State.blockError, illegal])
  · exact exec_rsBlock_of_failed ((State.blockError_of_degree h1 h30).trans (State.rangeError_of_outside hout))
  · exact exec_rsBlock_of_failed ((State.blockError_of_degree h1 h30).trans
      (State.rangeError_of_overlap hsrc hdst hsd hds hk))

/-! ## CWMEM outside the destination -/

/-- A successful RS_BLOCK keeps every byte outside its destination (R142, R145). -/
theorem State.lookup_commitBlock_outside (s : State) {n a : Nat} (ha : a < s.dst.toNat ∨ s.dst.toNat + n ≤ a) :
    (s.commitBlock n).mem.lookup a = s.mem.lookup a := by
  rw [State.commitBlock_mem, Mem.lookup_insertAll, length_rsRem, if_neg (by omega)]

/-- A data byte of an RS_BLOCK that passes its checks lies outside the destination (R133). -/
theorem State.outside_of_data_of_blockError {s : State} {n : Byte} (hn : s.blockError n = none) {a : Nat}
    (ha : s.src.toNat ≤ a ∧ a < s.src.toNat + s.len.toNat) : a < s.dst.toNat ∨ s.dst.toNat + n.toNat ≤ a := by
  obtain ⟨-, -, -, -, hdisj⟩ := State.blockError_none.mp hn
  omega

/-- A data byte of an RS_ENCODE that passes its checks lies outside the destination (R138). -/
theorem State.outside_of_data_of_rowError {s : State} {r : CapRow} (hc : s.rowError r = none) {a : Nat}
    (ha : s.src.toNat ≤ a ∧ a < s.src.toNat + r.ktot) : a < s.dst.toNat ∨ s.dst.toNat + r.etot ≤ a := by
  obtain ⟨-, -, -, -, hdisj⟩ := State.rowError_none.mp hc
  omega

/-- Settles O36: a failed command writes no byte, and a successful one none outside its destination, where its data
lie. -/
theorem memoryOutsideDestinationUnchanged : Obligations.MemoryOutsideDestinationUnchanged := by
  refine ⟨fun n s t h a ha => ?_, fun v e s t h => ⟨fun hnone => ?_, fun r hr a ha => ?_⟩⟩
  · cases exec_endsIn h with
    | failed | value => rfl
    | block _ hn =>
      refine s.lookup_commitBlock_outside ?_
      rcases ha with hlow | hhigh | hdata
      · exact .inl hlow
      · exact .inr hhigh
      · exact State.outside_of_data_of_blockError hn hdata
  · cases (exec_rsEncode_of_no_row hnone).symm.trans h
    rfl
  · cases exec_endsIn h with
    | failed | value => rfl
    | encode _ _ r' hr' hc =>
      obtain rfl : r' = r := Option.some.inj (hr'.symm.trans hr)
      refine s.lookup_commitEncode_outside ?_
      rcases ha with hlow | hhigh | hdata
      · exact .inl hlow
      · exact .inr hhigh
      · exact State.outside_of_data_of_rowError hc hdata

/-! ## A successful RS_ENCODE -/

/-- A successful RS_ENCODE has selected a row that passes its checks, and commits it (R139). -/
theorem exists_row_of_rsEncode_succeeds {v : Byte} {e : EcLevel} {s t : State} (h : exec (.rsEncode v e) s = .next t)
    (h0 : t.errcode = 0) : ∃ r, s.capRow v e = some r ∧ s.rowError r = none ∧ t = s.commitEncode r := by
  cases exec_endsIn h with
  | failed _ c => exact absurd h0 c.code_ne_zero
  | value _ hv _ => cases hv
  | encode _ _ r hr hc => exact ⟨r, hr, hc, rfl⟩

/-- The block lengths in order (R141). -/
theorem map_blockLength_range (r : CapRow) : (List.range r.nblk).map (blockLength r) = blockLengths r := by
  refine List.ext_getElem? fun j => ?_
  by_cases hj : j < r.nblk
  · rw [blockLengths_getElem? hj, List.getElem?_map, List.getElem?_range hj]
    rfl
  · rw [List.getElem?_eq_none (by simpa using hj), List.getElem?_eq_none (by simpa using hj)]

/-- Settles O33: the blocks are those of the valid row, and the data lie outside the destination. -/
theorem rsEncodeInvariants : Obligations.RsEncodeInvariants := by
  intro v e s t h h0
  obtain ⟨r, hr, hc, rfl⟩ := exists_row_of_rsEncode_succeeds h h0
  obtain ⟨hvalid, hlen, -⟩ := State.rowError_none.mp hc
  obtain ⟨-, -, -, -, hshorter, -⟩ := (CapRow.valid_iff r).mp hvalid
  refine ⟨r, hr, ?_, hlen.symm, ?_, fun _ h2 => hshorter.resolve_left h2, fun a hlow hhigh => ?_⟩
  · rw [map_blockLength_range, sum_blockLengths]
  · rw [State.commitEncode_etot, toNat_etot_field hvalid]
  · exact s.lookup_commitEncode_outside (State.outside_of_data_of_rowError hc ⟨hlow, hhigh⟩)

/-! ## A one-block symbol -/

section
variable {r : CapRow} (h1 : r.g1c = 1) (h2 : r.g2c = 0)
include h1 h2

/-- The one block of such a symbol is the whole of its data (R147). -/
theorem blockLengths_one_block : blockLengths r = [r.ktot] := by
  simp [blockLengths, CapRow.ktot, h1, h2]

theorem etot_one_block : r.etot = r.nec.toNat := by
  simp [CapRow.etot, CapRow.nblk, h1, h2]

/-- The checks of RS_BLOCK with n = NEC are among those that RS_ENCODE makes (R147). -/
theorem State.blockError_of_one_block {s : State} (hc : s.rowError r = none) : s.blockError r.nec = none := by
  obtain ⟨hvalid, hlen, hsrc, hdst, hdisj⟩ := State.rowError_none.mp hc
  obtain ⟨-, -, hn1, hn30, -⟩ := (CapRow.valid_iff r).mp hvalid
  rw [etot_one_block h1 h2] at hdst hdisj
  exact State.blockError_none.mpr ⟨hn1, hn30, by omega, hdst, by omega⟩

/-- The EC codewords of the symbol are those of its one block (R147). -/
theorem encodeBlocks_one_block (s : State) :
    encodeBlocks r.nec.toNat (blockLengths r) (s.cwRange s.src.toNat r.ktot)
      = rsRem (s.cwRange s.src.toNat r.ktot) r.nec.toNat := by
  rw [blockLengths_one_block h1 h2, encodeBlocks, encodeBlocks, List.append_nil, List.take_of_length_le (by simp)]

end

/-- Settles O35: RS_BLOCK passes its checks too, and commits the same codewords, generator and faults. -/
theorem oneBlockSymbolMatchesRsBlock : Obligations.OneBlockSymbolMatchesRsBlock := by
  intro v e s t r hr h1 h2 h h0
  obtain ⟨r', hr', hc, rfl⟩ := exists_row_of_rsEncode_succeeds h h0
  obtain rfl : r' = r := Option.some.inj (hr'.symm.trans hr)
  obtain ⟨-, hlen, -⟩ := State.rowError_none.mp hc
  have passed : s.blockError r'.nec = none := State.blockError_of_one_block h1 h2 hc
  refine ⟨_, exec_rsBlock_of_passed passed, s.commitBlock_errcode _, ?_, ?_, ?_, ?_⟩
  · rw [State.commitBlock_mem, State.commitEncode_mem, encodeBlocks_one_block h1 h2, hlen]
  · rw [State.commitBlock_gen, State.commitEncode_gen]
  · rw [State.commitBlock_gdeg, State.commitEncode_gdeg]
  · rw [State.commitBlock_faults, State.commitEncode_faults, hlen]

end Sys2Proof.Machine
end

section
/-!
PROOF. Proofs/EngineTurns.lean: the engine's turn as the completion of the latched command (60_exceptions.md R159, R160),
that no step stops (R158, R166), and what a failed command writes and its codes (R150 to R154, R162).
-/
namespace Sys2Proof.Machine

/-! ## The engine's turn -/

/-- The engine completes the command that the latched word decodes to (R160). -/
theorem engineStep_of_command {s : State} {i : Instr} (hb : s.busy = true) (hd : decode s.cmdLast = .command i) :
    engineStep s = exec i s := by
  rcases engineStep_cases s with ⟨hb', -⟩ | ⟨-, j, hj, he⟩ | ⟨-, why, hwhy, -⟩
  · cases hb.symm.trans hb'
  · cases hd.symm.trans hj
    exact he
  · cases hd.symm.trans hwhy

/-- Without a command the engine leaves the state as it is (R159). -/
theorem engineStep_of_idle {s : State} (hb : s.busy = false) : engineStep s = .next s := by
  rcases engineStep_cases s with ⟨-, he⟩ | ⟨hb', -⟩ | ⟨hb', -⟩
  · exact he
  · cases hb.symm.trans hb'
  · cases hb.symm.trans hb'

/-- With a command the engine answers a state in which the command has ended (R159, R160). -/
theorem engineStep_of_busy {s : State} (hb : s.busy = true) :
    ∃ t, engineStep s = .next t ∧ t.busy = false ∧ t.done = true := by
  rcases engineStep_cases s with ⟨hb', -⟩ | ⟨-, i, -, he⟩ | ⟨-, _, -, he⟩
  · cases hb.symm.trans hb'
  · obtain ⟨t, ht⟩ := exec_next i s
    obtain ⟨hbusy, hdone, -⟩ := (exec_endsIn ht).flags
    exact ⟨t, he.trans ht, hbusy, hdone⟩
  · exact ⟨_, he, rfl, rfl⟩

/-- A step at the engine's turn is the engine's, the turn being used up (R163). -/
theorem step_of_engine_turn {s : State} (ht : s.turn = .engine) : step s = engineStep s.takeTurn := by
  rw [step, ht]

/-- Settles O9: the engine's turn, with the latched word decoded. -/
theorem stepRunsDecodedInstruction : Obligations.StepRunsDecodedInstruction := by
  intro s i ht hb hd
  exact (step_of_engine_turn ht).trans (engineStep_of_command (s := s.takeTurn) hb hd)

/-- Settles O12: the host's turn always leaves a state, and the engine's does with a command and without one. -/
theorem stepNeverStops : Obligations.StepNeverStops := by
  intro s
  cases ht : s.turn with
  | host => exact ⟨s.takeTurn.hostStep, by rw [step, ht]⟩
  | engine =>
    rw [step_of_engine_turn ht]
    cases hb : s.takeTurn.busy with
    | false => exact ⟨_, engineStep_of_idle hb⟩
    | true =>
      obtain ⟨t, he, -⟩ := engineStep_of_busy hb
      exact ⟨t, he⟩

/-! ## Failed commands -/

/-- Settles O38: of the ways a command can end only the failed one leaves an error code, and it writes the status
alone. -/
theorem failureCommitsNothing : Obligations.FailureCommitsNothing := by
  refine ⟨fun i s t h hcode => ?_, fun s t why hb hd h => ?_⟩
  · cases exec_endsIn h with
    | failed _ c => rfl
    | value | generator => exact absurd rfl hcode
    | block n => exact absurd (s.commitBlock_errcode n.toNat) hcode
    | encode _ _ r => exact absurd (s.commitEncode_errcode r) hcode
  · cases (engineStep_of_illegal hb hd).symm.trans h
    exact ⟨ErrCode.code_ne_zero .illegalCmd, rfl⟩

/-! ## The errors of each check -/

/-- The degree check fails with INVALID_DEGREE (R118, R132). -/
theorem eq_of_degreeError {n : Byte} {c : ErrCode} (h : degreeError n = some c) : c = .invalidDegree := by
  unfold degreeError at h
  split at h
  · exact (Option.some.inj h).symm
  · cases h

/-- The range checks fail with ADDR_RANGE or REGION_OVERLAP (R131, R133). -/
theorem State.eq_of_rangeError {s : State} {k m : Nat} {c : ErrCode} (h : s.rangeError k m = some c) :
    c = .addrRange ∨ c = .regionOverlap := by
  unfold State.rangeError at h
  split at h
  · exact .inl (Option.some.inj h).symm
  · split at h
    · exact .inr (Option.some.inj h).symm
    · cases h

/-- The checks of RS_BLOCK fail with the error of the degree or of the ranges (R132). -/
theorem State.eq_of_blockError {s : State} {n : Byte} {c : ErrCode} (h : s.blockError n = some c) :
    c = .invalidDegree ∨ c = .addrRange ∨ c = .regionOverlap := by
  unfold State.blockError at h
  split at h
  · next hd =>
    cases h
    exact .inl (eq_of_degreeError hd)
  · exact .inr (State.eq_of_rangeError h)

/-- The checks of RS_ENCODE on its row fail with the error of the row, of LEN or of the ranges (R139). -/
theorem State.eq_of_rowError {s : State} {r : CapRow} {c : ErrCode} (h : s.rowError r = some c) :
    c = .tableFault ∨ c = .lengthMismatch ∨ c = .addrRange ∨ c = .regionOverlap := by
  unfold State.rowError at h
  split at h
  · exact .inl (Option.some.inj h).symm
  · split at h
    · exact .inr (.inl (Option.some.inj h).symm)
    · exact .inr (.inr (State.eq_of_rangeError h))

/-- A GF command whose operand is checked first succeeds, or leaves the code of that check (R106, R108). -/
theorem State.errcode_of_check (s : State) (bad : Prop) [Decidable bad] (c : ErrCode) (v : Byte) :
    (if bad then s.raiseError c else s.completeWith v).errcode = 0 ∨
      (if bad then s.raiseError c else s.completeWith v).errcode = c.code := by
  by_cases hbad : bad
  · exact .inr (by rw [if_pos hbad]; rfl)
  · exact .inl (by rw [if_neg hbad]; rfl)

/-- Settles O39: a command without checks succeeds, and the others succeed or fail one of their own checks. -/
theorem errorsOfEachCommand : Obligations.ErrorsOfEachCommand := by
  intro i s t h
  cases i with
  | gfAdd | gfMul | gfExp => cases h; rfl
  | gfDiv a b => cases h; exact s.errcode_of_check (b = 0) .divZero _
  | gfLog a => cases h; exact s.errcode_of_check (a = 0) .logZero _
  | genPoly n =>
    cases h
    cases hd : degreeError n with
    | none => exact .inl rfl
    | some c =>
      obtain rfl := eq_of_degreeError hd
      exact .inr rfl
  | rsBlock n =>
    rcases execRsBlock_cases n s with ⟨c, hc, he⟩ | ⟨-, he⟩ <;> cases h.symm.trans he
    · rcases State.eq_of_blockError hc with rfl | rfl | rfl <;> simp [ErrCode.code]
    · exact .inl (s.commitBlock_errcode _)
  | rsEncode v e =>
    rcases execRsEncode_cases v e s with ⟨-, he⟩ | ⟨r, c, -, hc, he⟩ | ⟨r, -, -, he⟩ <;> cases h.symm.trans he
    · exact .inr (.inl rfl)
    · rcases State.eq_of_rowError hc with rfl | rfl | rfl | rfl <;> simp [ErrCode.code]
    · exact .inl (s.commitEncode_errcode r)

end Sys2Proof.Machine
end

section
/-!
PROOF. Proofs/AcceptanceAndFaults.lean: a write to CMD with BUSY = 0 latches the word, and nothing else makes BUSY 1
(60_exceptions.md R156, R159); no step clears a recorded model fault (R158).
-/
namespace Sys2Proof.Machine

/-! ## Acceptance -/

/-- Settles O41: with BUSY = 0 a write to CMD has the register's effect, which is acceptance. -/
theorem commandAcceptance : Obligations.CommandAcceptance := by
  intro s w hb
  have accepted : s.busWrite cmdOffset .b32 w = ⟨.okay, 0, s.accept w⟩ :=
    s.busWrite_of_reg (r := .cmd) w (by decide) (.inl hb)
  exact ⟨accepted, by rw [accepted]; exact s.irq_accept w⟩

/-! ## What makes BUSY 1 -/

/-- A register stands at one aligned offset only (R21). -/
theorem regAt_inj {a b : Nat} {r : DevReg} (ha : regAt a = some r) (hb : regAt b = some r) : a / 4 = b / 4 := by
  have notGen (k : Nat) (i : Fin 32) : [DevReg.id, .cap, .ctrl, .status, .cmd, .result, .errcode, .src, .len, .dst,
      .gdeg, .geom0, .geom1, .etot][k]? ≠ some (.gen i) := fun h => by
    simpa using List.mem_of_getElem? h
  unfold regAt at ha hb
  split at ha <;> split at hb
  · have := ha.trans hb.symm
    simp only [Option.some.injEq, DevReg.gen.injEq, Fin.mk.injEq] at this
    omega
  · cases ha
    exact absurd hb (notGen _ _)
  · cases hb
    exact absurd ha (notGen _ _)
  · obtain ⟨hlt, -⟩ := List.getElem?_eq_some_iff.mp ha
    exact (List.getElem?_inj hlt (by decide)).mp (ha.trans hb.symm)

/-- Accesses to one register are of one form, an aligned 32-bit access at the register's offset (R21, R59). -/
theorem accessTarget_reg_inj {off off' : Offset} {w w' : AccessWidth} {r : DevReg}
    (h : accessTarget off w = some (.reg r)) (h' : accessTarget off' w' = some (.reg r)) : off = off' ∧ w = w' := by
  obtain ⟨-, hw, h4, hr⟩ := accessTarget_reg h
  obtain ⟨-, hw', h4', hr'⟩ := accessTarget_reg h'
  have := regAt_inj hr hr'
  exact ⟨BitVec.eq_of_toNat_eq (by omega), hw.trans hw'.symm⟩

section
variable {s : State} (hb : s.busy = false)
include hb

/-- Of the register writes only acceptance sets BUSY (R156). -/
theorem State.eq_cmd_of_writeReg_busy {r : DevReg} {v : Word} (h : (s.writeReg r v).busy = true) : r = .cmd := by
  cases r with
  | cmd => rfl
  | ctrl =>
    simp only [State.writeReg, State.writeCtrl] at h
    split at h
    · cases h
    · cases hb.symm.trans h
  | _ => cases hb.symm.trans h

/-- A host write that sets BUSY is a 32-bit write to CMD (R156). -/
theorem State.eq_cmdOffset_of_busWrite_busy {off : Offset} {w : AccessWidth} {v : Word}
    (h : (s.busWrite off w v).state.busy = true) : off = cmdOffset ∧ w = .b32 := by
  rcases s.busWrite_cases off w v with e | ⟨r, hr, -, e⟩ | e | ⟨-, -, a, vs, -, e⟩ <;> rw [e] at h
  · cases hb.symm.trans h
  · obtain rfl := State.eq_cmd_of_writeReg_busy hb h
    exact accessTarget_reg_inj hr (by decide)
  · cases hb.symm.trans h
  · cases hb.symm.trans h

/-- A host turn that sets BUSY is a write to CMD (R156). -/
theorem State.hostNext_of_hostStep_busy (h : s.hostStep.busy = true) :
    ∃ v, s.hostNext = some (.write cmdOffset .b32 v) := by
  unfold State.hostStep at h
  split at h
  · next op hop =>
    cases op with
    | write off w v =>
      obtain ⟨rfl, rfl⟩ := State.eq_cmdOffset_of_busWrite_busy hb h
      exact ⟨v, hop⟩
    | read off w k =>
      have keeps : (s.busRead off w).state.busy = s.busy := by
        rcases s.busRead_state off w with e | ⟨-, e | e | ⟨a, k, e⟩⟩ <;> rw [e] <;> rfl
      cases (keeps.trans hb).symm.trans h
    | bz | bnz | halt => cases hb.symm.trans h
  · cases hb.symm.trans h

end

/-- Settles O11: the engine ends a command and sets no BUSY, so only the host's turn can, by a write to CMD. -/
theorem engineStepExactlyWhileBusy : Obligations.EngineStepExactlyWhileBusy := by
  refine ⟨fun s ht hb => ?_, fun s ht hb => ?_, fun s t h hb hbusy => ?_⟩
  · rw [step_of_engine_turn ht]
    exact engineStep_of_busy (s := s.takeTurn) hb
  · rw [step_of_engine_turn ht]
    exact engineStep_of_idle (s := s.takeTurn) hb
  · rcases step_cases h with ⟨-, he⟩ | ⟨ht, rfl⟩
    · cases (engineStep_of_idle (s := s.takeTurn) hb).symm.trans he
      cases hb.symm.trans hbusy
    · exact ⟨ht, State.hostNext_of_hostStep_busy (s := s.takeTurn) hb hbusy⟩

/-! ## The recorded model faults -/

theorem State.faults_subset_recordUninit (s : State) (start k : Nat) : s.faults ⊆ (s.recordUninit start k).faults :=
  fun f hf => (s.mem_recordUninit_faults start k f).mpr (.inl hf)

theorem State.faults_subset_recordReserved (s : State) (off : Offset) : s.faults ⊆ (s.recordReserved off).faults :=
  fun _ hf => mem_addFault.mpr (.inl hf)

/-- A command adds faults at most for the bytes it reads (R158). -/
theorem EndsIn.faults_subset {s t : State} {i : Instr} (h : EndsIn s i t) : s.faults ⊆ t.faults := by
  cases h with
  | failed | value | generator => exact List.Subset.refl _
  | block n =>
    rw [State.commitBlock_faults]
    exact s.faults_subset_recordUninit _ _
  | encode _ _ r =>
    rw [State.commitEncode_faults]
    exact s.faults_subset_recordUninit _ _

theorem engineStep_faults_subset {s t : State} (h : engineStep s = .next t) : s.faults ⊆ t.faults := by
  rcases engineStep_cases s with ⟨-, he⟩ | ⟨-, i, -, he⟩ | ⟨-, _, -, he⟩
  · cases he.symm.trans h
    exact List.Subset.refl _
  · exact (exec_endsIn (he.symm.trans h)).faults_subset
  · cases he.symm.trans h
    exact List.Subset.refl _

/-- No register write touches the faults, a soft reset included (R158, R184). -/
theorem State.writeReg_faults (s : State) (r : DevReg) (v : Word) : (s.writeReg r v).faults = s.faults := by
  cases r with
  | ctrl =>
    simp only [State.writeReg, State.writeCtrl]
    split
    · exact s.softReset_faults
    · rfl
  | _ => rfl

theorem State.busWrite_faults_subset (s : State) (off : Offset) (w : AccessWidth) (v : Word) :
    s.faults ⊆ (s.busWrite off w v).state.faults := by
  rcases s.busWrite_cases off w v with e | ⟨r, -, -, e⟩ | e | ⟨-, -, a, vs, -, e⟩ <;> rw [e]
  · exact List.Subset.refl _
  · rw [State.writeReg_faults]
    exact List.Subset.refl _
  · exact s.faults_subset_recordReserved off
  · exact List.Subset.refl _

theorem State.busRead_faults_subset (s : State) (off : Offset) (w : AccessWidth) :
    s.faults ⊆ (s.busRead off w).state.faults := by
  rcases s.busRead_state off w with e | ⟨-, e | e | ⟨a, k, e⟩⟩ <;> rw [e]
  · exact List.Subset.refl _
  · exact List.Subset.refl _
  · exact s.faults_subset_recordReserved off
  · exact s.faults_subset_recordUninit a k

theorem State.hostStep_faults_subset (s : State) : s.faults ⊆ s.hostStep.faults := by
  unfold State.hostStep
  split
  · next op _ =>
    cases op with
    | write off w v => exact s.busWrite_faults_subset off w v
    | read off w k => exact s.busRead_faults_subset off w
    | bz | bnz | halt => exact List.Subset.refl _
  · exact List.Subset.refl _

/-- Settles O58: each agent's turn keeps every fault recorded before it. -/
theorem faultsNeverCleared : Obligations.FaultsNeverCleared := by
  intro s t h f hf
  rcases step_cases h with ⟨-, he⟩ | ⟨-, rfl⟩
  · exact engineStep_faults_subset he hf
  · exact s.takeTurn.hostStep_faults_subset hf

end Sys2Proof.Machine
end

section
/-!
PROOF. Proofs/Reset.lean: power-on reset (70_reset_and_hazards.md R175), and the soft-reset write to CTRL: the registers it
returns to their reset values (R183, R184), and what it does to CWMEM, which is what the abort of the latched command does
(R185, R195).
-/
namespace Sys2Proof.Machine

/-! ## Power-on reset -/

/-- Settles O53: the reset state is a constant, and each register is read off it; GEN holds 32 zeros. -/
theorem powerOnReset : Obligations.PowerOnReset := by
  have genZero (i : Fin 32) : State.reset.readReg (.gen i) = 0 := by
    simp [State.readReg, State.reset, Vector.get]
  exact ⟨rfl, rfl, rfl, rfl, rfl, rfl, rfl, rfl, rfl, rfl, rfl, rfl, genZero, rfl, rfl, rfl, rfl, fun _ => rfl⟩

/-! ## The write to CTRL -/

/-- A 32-bit write to CTRL is accepted whatever BUSY is (R24, R67). -/
theorem State.busWrite_ctrl (s : State) (v : Word) :
    s.busWrite ctrlOffset .b32 v = ⟨.okay, 0, s.writeCtrl v⟩ :=
  s.busWrite_of_reg (r := .ctrl) v (by decide) (.inr rfl)

/-- The soft reset as one record: an abort touches CWMEM and lostRanges alone (R184, R185). -/
theorem State.softReset_eq (s : State) : s.softReset = { s with
    ie := false, busy := false, done := false, err := false, werr := false, cmdLast := 0, result := 0,
    errcode := 0, src := 0, len := 0, dst := 0, gdeg := 0, geom0 := 0, geom1 := 0, etot := 0,
    gen := Vector.replicate 32 0, mem := s.abortLatched.mem, lostRanges := s.abortLatched.lostRanges } := by
  rcases s.abortLatched_cases with e | ⟨_, _, _, -, -, -, e⟩
  · rw [State.softReset, e]
  · rw [State.softReset, e]
    rfl

/-! ## The abort -/

/-- Without a command there is nothing to abort (R195). -/
theorem State.abortLatched_of_idle {s : State} (hb : s.busy = false) : s.abortLatched = s := by
  rcases s.abortLatched_cases with e | ⟨_, _, _, hb', -⟩
  · exact e
  · cases hb.symm.trans hb'

/-- Settles O54: the write has CTRL's effect, which for bit [1] = 1 is the soft reset, and with BUSY = 0 it aborts
nothing. -/
theorem softResetReturnsRegisters : Obligations.SoftResetReturnsRegisters := by
  refine fun s v => ⟨fun hv => ⟨?_, fun hb => ?_⟩, fun hv => ?_⟩
  · rw [s.busWrite_ctrl, State.writeCtrl, if_pos hv, State.softReset_eq]
  · rw [State.abortLatched_of_idle hb]
    exact ⟨rfl, rfl⟩
  · rw [s.busWrite_ctrl, State.writeCtrl, if_neg (Bool.eq_false_iff.mp hv)]

/-- A latched word that names no destination range loses none (R185). -/
theorem State.abortLatched_of_no_destination {s : State}
    (h : ∀ i, decode s.cmdLast = .command i → s.destinationOf i = none) : s.abortLatched = s := by
  rcases s.abortLatched_cases with e | ⟨i, start, n, -, hi, hdest, -⟩
  · exact e
  · cases (h i hi).symm.trans hdest

section
variable {s : State} {i : Instr} (hd : decode s.cmdLast = .command i)
include hd

/-- A latched command without a destination range loses none (R185). -/
theorem State.abortLatched_mem_of_none (hdest : s.destinationOf i = none) : s.abortLatched.mem = s.mem := by
  rw [State.abortLatched_of_no_destination]
  intro j hj
  cases hd.symm.trans hj
  exact hdest

/-- A latched command with a destination range loses exactly that range (R185). -/
theorem State.lookup_abortLatched_of_some (hb : s.busy = true) {start n : Nat}
    (hdest : s.destinationOf i = some (start, n)) (a : Nat) :
    s.abortLatched.mem.lookup a = if start ≤ a ∧ a < start + n then none else s.mem.lookup a := by
  have lost : s.abortLatched = s.loseRange start n := by
    simp [State.abortLatched, State.latched, hb, hd, hdest]
  rw [lost, State.loseRange_mem, Mem.lookup_eraseRange]

end

/-! ## The destination ranges -/

theorem State.destinationOf_rsBlock_of_passed {s : State} {n : Byte} (h : s.blockError n = none) :
    s.destinationOf (.rsBlock n) = some (s.dst.toNat, n.toNat) := if_pos h

theorem State.destinationOf_rsBlock_of_failed {s : State} {n : Byte} (h : s.blockError n ≠ none) :
    s.destinationOf (.rsBlock n) = none := if_neg h

theorem State.destinationOf_rsEncode_of_no_row {s : State} {x : Byte} {e : EcLevel} (h : s.capRow x e = none) :
    s.destinationOf (.rsEncode x e) = none := by
  simp only [State.destinationOf, h]

theorem State.destinationOf_rsEncode_of_passed {s : State} {x : Byte} {e : EcLevel} {r : CapRow}
    (hr : s.capRow x e = some r) (h : s.rowError r = none) :
    s.destinationOf (.rsEncode x e) = some (s.dst.toNat, r.etot) := by
  simp only [State.destinationOf, hr, if_pos h]

theorem State.destinationOf_rsEncode_of_failed {s : State} {x : Byte} {e : EcLevel} {r : CapRow}
    (hr : s.capRow x e = some r) (h : s.rowError r ≠ none) : s.destinationOf (.rsEncode x e) = none := by
  simp only [State.destinationOf, hr, if_neg h]

/-! ## The abort of each command -/

section
variable {s : State} (hb : s.busy = true)
include hb

/-- An aborted RS_BLOCK keeps its data: they lie outside the destination, or nothing is lost (R133, R185). -/
theorem State.lookup_abortLatched_block_data {n : Byte} (hd : decode s.cmdLast = .command (.rsBlock n)) {a : Nat}
    (ha : s.src.toNat ≤ a ∧ a < s.src.toNat + s.len.toNat) : s.abortLatched.mem.lookup a = s.mem.lookup a := by
  by_cases hn : s.blockError n = none
  · have outside := State.outside_of_data_of_blockError hn ha
    rw [State.lookup_abortLatched_of_some hd hb (State.destinationOf_rsBlock_of_passed hn), if_neg (by omega)]
  · rw [State.abortLatched_mem_of_none hd (State.destinationOf_rsBlock_of_failed hn)]

/-- An aborted RS_ENCODE keeps its data: they lie outside the destination, or nothing is lost (R138, R185). -/
theorem State.lookup_abortLatched_encode_data {x : Byte} {e : EcLevel} {r : CapRow}
    (hd : decode s.cmdLast = .command (.rsEncode x e)) (hr : s.capRow x e = some r) {a : Nat}
    (ha : s.src.toNat ≤ a ∧ a < s.src.toNat + r.ktot) : s.abortLatched.mem.lookup a = s.mem.lookup a := by
  by_cases hc : s.rowError r = none
  · have outside := State.outside_of_data_of_rowError hc ha
    rw [State.lookup_abortLatched_of_some hd hb (State.destinationOf_rsEncode_of_passed hr hc), if_neg (by omega)]
  · rw [State.abortLatched_mem_of_none hd (State.destinationOf_rsEncode_of_failed hr hc)]

end

/-- A latched word that is neither RS_BLOCK nor RS_ENCODE loses no byte (R185). -/
theorem State.abortLatched_mem_of_other {s : State} (hblock : ∀ n, decode s.cmdLast ≠ .command (.rsBlock n))
    (hencode : ∀ x e, decode s.cmdLast ≠ .command (.rsEncode x e)) : s.abortLatched.mem = s.mem := by
  rw [State.abortLatched_of_no_destination]
  intro i hi
  rw [Option.eq_none_iff_forall_ne_some]
  intro d hdest
  rcases decode_of_writesMemory ⟨i, hi, State.writesMemory_of_destinationOf hdest⟩ with ⟨n, hn⟩ | ⟨x, e, he⟩
  · exact hblock n hn
  · exact hencode x e he

/-- Settles O55: the write leaves the CWMEM of the abort, and the abort is told by the destination range of each latched
word. -/
theorem abortLosesDestination : Obligations.AbortLosesDestination := by
  intro s u v hb hv hu
  have hmem : u.mem = s.abortLatched.mem := by
    rw [hu, s.busWrite_ctrl, State.writeCtrl, if_pos hv, State.softReset_mem]
  rw [hmem]
  exact ⟨fun n hd hn => State.lookup_abortLatched_of_some hd hb (State.destinationOf_rsBlock_of_passed hn),
    fun n hd hn => State.abortLatched_mem_of_none hd (State.destinationOf_rsBlock_of_failed hn),
    fun n hd a hlow hhigh => State.lookup_abortLatched_block_data hb hd ⟨hlow, hhigh⟩,
    fun x e r hd hr hc =>
      State.lookup_abortLatched_of_some hd hb (State.destinationOf_rsEncode_of_passed hr hc),
    fun x e r hd hr a hlow hhigh => State.lookup_abortLatched_encode_data hb hd hr ⟨hlow, hhigh⟩,
    fun x e r hd hr hc => State.abortLatched_mem_of_none hd (State.destinationOf_rsEncode_of_failed hr hc),
    fun x e hd hr => State.abortLatched_mem_of_none hd (State.destinationOf_rsEncode_of_no_row hr),
    State.abortLatched_mem_of_other⟩

end Sys2Proof.Machine
end

section
/-!
PROOF. Proofs/EngineProgress.lean: a latched command leaves the engine (70_reset_and_hazards.md R192). Each host turn uses up
one of the fixed turns, and without a fixed turn the engine, which has a command, takes the next (log entry 1).
-/
namespace Sys2Proof.Machine

/-- A run that begins with a step (R193). -/
theorem core_run_succ {s t : State} (h : step s = .next t) (k : Nat) : core.run (k + 1) s = core.run k t := by
  have h' : core.step s = .next t := h
  simp only [Host.Core.run, h']

/-- The host fixes no turns: its operation leaves the schedule as it is (log entry 1). -/
theorem State.hostStep_schedule (s : State) : s.hostStep.schedule = s.schedule := by
  unfold State.hostStep
  split
  · next op _ =>
    cases op with
    | write off w v => exact (s.busWrite_sameHost off w v).schedule
    | read off w t => exact (s.busRead_sameHost off w).schedule
    | bz | bnz | halt => rfl
  · rfl

/-- Within n steps the engine of s has become idle (R192). -/
def State.IdleWithin (s : State) (n : Nat) : Prop := ∃ k t, k ≤ n ∧ core.run k s = .next t ∧ t.busy = false

/-- The engine's turn ends the command (R160). -/
theorem State.idleWithin_of_engine_turn {s : State} (ht : s.turn = .engine) (hb : s.busy = true) (n : Nat) :
    s.IdleWithin (n + 1) := by
  obtain ⟨t, he, hbusy, -⟩ := engineStep_of_busy (s := s.takeTurn) hb
  exact ⟨1, t, by omega, core_run_succ ((step_of_engine_turn ht).trans he) 0, hbusy⟩

/-- Settles O13, by induction on the fixed turns: the engine's ends the command, and the host's either discards it or
leaves it to the turns that remain. -/
theorem acceptedCommandLeavesEngine : Obligations.AcceptedCommandLeavesEngine := by
  intro s hb
  change s.IdleWithin (s.schedule.length + 1)
  induction hs : s.schedule generalizing s with
  | nil => exact State.idleWithin_of_engine_turn (by simp [State.turn, hs, hb]) hb 0
  | cons a rest ih =>
    cases a with
    | engine => exact State.idleWithin_of_engine_turn (by simp [State.turn, hs]) hb _
    | host =>
      have hstep : step s = .next s.takeTurn.hostStep := by simp [step, State.turn, hs]
      cases hbusy : s.takeTurn.hostStep.busy with
      | false => exact ⟨1, _, by simp, core_run_succ hstep 0, hbusy⟩
      | true =>
        have hrest : s.takeTurn.hostStep.schedule = rest := by
          rw [State.hostStep_schedule, State.takeTurn_schedule, hs, List.tail_cons]
        obtain ⟨k, t, hk, hrun, ht⟩ := ih _ hbusy hrest
        exact ⟨k + 1, t, by simpa using hk, (core_run_succ hstep k).trans hrun, ht⟩

end Sys2Proof.Machine
end
